-- ==== Sys2Proof/Word.lean ====
section
/-! DEFINITION. Word and name types of the single-wire protocol engine (SWPE): the fixed-width words the spec
numbers bit by bit, and the closed sets of names it uses for levels, directions and phases. -/

namespace Sys2Proof

/-- One cell of the sample store `RAW` (rule R24). -/
abbrev Bit := BitVec 1

/-- A reading or a byte of the frame (rules R25, R26, R59). -/
abbrev Byte := BitVec 8

/-- A 10-bit count of ticks: `TCNT`, `T1`, `T2` and the measured width `W` (rule R9). -/
abbrev Ticks := BitVec 10

/-- The input word `IN[2:0] = (rst, start, line_in)` sampled at one edge (rule R52). -/
abbrev InWord := BitVec 3

/-- The phase register `PH[3:0]` as bits (rules R17, R54). -/
abbrev PhaseWord := BitVec 4

/-- The selector `SEL[6:0] = (PH[3:0], rst, start, line_in)` over which `opcode_table.json` is written
(`30_encoding.md`, opening paragraph). -/
abbrev SelWord := BitVec 7

/-- A level of the line: `High = 1`, `Low = 0` (rule R10). -/
inductive Level where
  | low
  | high
  deriving DecidableEq, Repr

/-- The direction of the line: `Output = 1`, `Input = 0` (rule R10). -/
inductive Direction where
  | input
  | output
  deriving DecidableEq, Repr

/-- The nine phase states of rule R54; their 4-bit codes are `Phase.code` in `Sys2Proof/Decode.lean`. -/
inductive Phase where
  | idle
  | hold
  | ackA
  | ackB
  | ackC
  | valid
  | bitL
  | bitH
  | check
  deriving DecidableEq, Repr

end Sys2Proof
end

