-- ==== Sys2Proof/Config.lean ====
section
/-! DEFINITION. What is fixed for the machine: the protocol constants of rule R8, the legal values of the open
parameter `HOLD_TICKS` (rule R7), and the one free value of the model, the environment's draw of the inputs. -/

namespace Sys2Proof

/-- `TMO` of rule R8: the generic wait timeout, in ticks. -/
def Config.tmo : Nat := 500

/-- `ACK_LO` of rule R8: exclusive lower bound of an acknowledgment pulse. -/
def Config.ackLo : Nat := 60

/-- `ACK_HI` of rule R8: exclusive upper bound of an acknowledgment pulse. -/
def Config.ackHi : Nat := 100

/-- `B0_LO` of rule R8: exclusive lower bound of a bit-0 pulse. -/
def Config.b0Lo : Nat := 20

/-- `B0_HI` of rule R8: exclusive upper bound of a bit-0 pulse. -/
def Config.b0Hi : Nat := 30

/-- `B1_LO` of rule R8: exclusive lower bound of a bit-1 pulse. -/
def Config.b1Lo : Nat := 60

/-- `B1_HI` of rule R8: exclusive upper bound of a bit-1 pulse. -/
def Config.b1Hi : Nat := 80

/-- `NBITS` of rule R8: the number of bits of a frame, and of cells of `RAW` (rule R24). -/
def Config.nbits : Nat := 40

/-- A legal value of the parameter `HOLD_TICKS`: a natural number, at least 1 (rule R7; 0 is refused,
`93_implementation_defined.md` U10). An illegal value cannot be written. -/
abbrev HoldTicks := { n : Nat // 1 ≤ n }

/-- The default of `HOLD_TICKS`, 18 ms at the nominal tick (rule R7). -/
def Config.defaultHoldTicks : HoldTicks := ⟨18000, by decide⟩

/-- FREE VALUE. The input word `(rst, start, line_in)` that the environment supplies at the n-th edge whose inputs
the model has not been given (`State.inputs` is empty): "one draw per edge from the environment's input sequence",
under no law (rule R13 item 1, rule R44, `93_implementation_defined.md` U3). No body: nothing can be proved of a
value of it. DESIGN CHOICE, log entry 1. -/
opaque Config.freeInput : Nat → InWord

end Sys2Proof
end

