-- ==== Sys2Proof/Syntax.lean ====
section
/-! DEFINITION. The step rules SWPE selects from, one constructor per row of `spec/opcode_table.json`. The operands
are the bits of the selector word that the row leaves open (an `x` in its "encoding"), so that a selector word and
its instruction determine each other; each meaning says which of them it looks at. -/

namespace Sys2Proof

/-- The eleven rows of the opcode table (rules R51, R53, R54). `start` and `lineIn` are the inputs sampled at the
edge; `ph` is the phase register before a reset edge, which may hold any value (rule R53, "any"). -/
inductive Instr where
  /-- `RESET`, pattern `xxxx1xx` (rule R108). -/
  | reset (ph : PhaseWord) (start : Bool) (lineIn : Level)
  /-- `NOP`, pattern `000000x` (rule R67). -/
  | nop (lineIn : Level)
  /-- `READ`, pattern `000001x` (rule R68). -/
  | read (lineIn : Level)
  /-- `HOLD`, pattern `00010xx` (rule R69). -/
  | hold (start : Bool) (lineIn : Level)
  /-- `ACK_A`, pattern `00100xx` (rule R73). -/
  | ackA (start : Bool) (lineIn : Level)
  /-- `ACK_B`, pattern `00110xx` (rule R74). -/
  | ackB (start : Bool) (lineIn : Level)
  /-- `ACK_C`, pattern `01000xx` (rule R75). -/
  | ackC (start : Bool) (lineIn : Level)
  /-- `VALID`, pattern `01010xx` (rule R76). -/
  | valid (start : Bool) (lineIn : Level)
  /-- `BIT_L`, pattern `01100xx` (rule R79). -/
  | bitL (start : Bool) (lineIn : Level)
  /-- `BIT_H`, pattern `01110xx` (rule R80). -/
  | bitH (start : Bool) (lineIn : Level)
  /-- `CHECK`, pattern `10000xx` (rule R86). -/
  | check (start : Bool) (lineIn : Level)
  deriving DecidableEq, Repr

end Sys2Proof
end

