-- ==== Sys2Proof/WellFormed.lean ====
section
/-! DEFINITION. The checks on raw numbers that stand before the typed model: which numbers are selector words of an
instruction, and which are legal values of `HOLD_TICKS`. An `Instr` itself needs no check: each operand's type holds
exactly the values its bits can take, so every term of `Instr` is well formed. -/

namespace Sys2Proof

/-- The number fits the seven bits of `SEL7` (`30_encoding.md`, opening paragraph). -/
def selectorFits (w : Nat) : Bool := decide (w < 128)

/-- The selector's phase field names a phase, or `rst` is 1 and the phase is not looked at (rules R51, R55). -/
def selectorNamesARule (w : Nat) : Bool := decide (w / 4 % 2 = 1) || decide (w / 8 ≤ 8)

/-- The number is the selector word of some instruction. -/
def selectorWellFormed (w : Nat) : Bool := selectorFits w && selectorNamesARule w

/-- The number is a legal value of `HOLD_TICKS` (rule R7). -/
def holdTicksWellFormed (n : Nat) : Bool := decide (1 ≤ n)

/-- A raw number as a value of `HOLD_TICKS`, refused when it is 0 (`93_implementation_defined.md` U10). -/
def HoldTicks.ofNat? (n : Nat) : Option HoldTicks := if h : 1 ≤ n then some ⟨n, h⟩ else none

end Sys2Proof
end

