-- ==== Sys2Proof/Decode.lean ====
section
/-! DEFINITION. The encodings of `30_encoding.md` section 1: phase codes, the fields of the input word, the selector
word, the decoder (total on any word, rejecting by name) and the encoder, and the rows of `opcode_table.json` as
data, beside which the decoder is checked. -/

namespace Sys2Proof

/-- Why a word is no instruction's selector. -/
inductive DecodeError where
  /-- `rst = 0` and the phase field is 9 to 15, which name no phase (rule R55). -/
  | reservedPhase (ph : PhaseWord)
  /-- A bit above bit 6 is set: `SEL7` has seven bits. -/
  | tooWide (w : Nat)
  deriving DecidableEq, Repr

/-- The bit of a level: `High = 1`, `Low = 0` (rule R10). -/
def Level.bit : Level → Bit
  | .low => 0
  | .high => 1

/-- The level a bit stands for (rule R10). -/
def Level.ofBool : Bool → Level
  | false => .low
  | true => .high

/-- The codes of the phase register (rule R54). -/
def Phase.code : Phase → PhaseWord
  | .idle => 0
  | .hold => 1
  | .ackA => 2
  | .ackB => 3
  | .ackC => 4
  | .valid => 5
  | .bitL => 6
  | .bitH => 7
  | .check => 8

/-- The phase a code names; 9 to 15 name none (rules R54, R55). -/
def Phase.ofCode? (ph : PhaseWord) : Option Phase :=
  match ph.toNat with
  | 0 => some .idle
  | 1 => some .hold
  | 2 => some .ackA
  | 3 => some .ackB
  | 4 => some .ackC
  | 5 => some .valid
  | 6 => some .bitL
  | 7 => some .bitH
  | 8 => some .check
  | _ => none

/-- Bit 2 of the input word (rule R52). -/
def InWord.rst (w : InWord) : Bool := w.getLsbD 2

/-- Bit 1 of the input word (rule R52). -/
def InWord.start (w : InWord) : Bool := w.getLsbD 1

/-- Bit 0 of the input word, as a level (rule R52). -/
def InWord.lineIn (w : InWord) : Level := Level.ofBool (w.getLsbD 0)

/-- The input word of three inputs (rule R52). -/
def InWord.mk (rst start : Bool) (lineIn : Level) : InWord :=
  (BitVec.ofBool rst ++ BitVec.ofBool start ++ lineIn.bit : BitVec 3)

/-- The selector word of a phase register and an input word. -/
def selector (ph : PhaseWord) (inw : InWord) : SelWord := (ph ++ inw : BitVec 7)

/-- The phase field, bits 6 to 3 of a selector word. -/
def SelWord.ph (w : SelWord) : PhaseWord := w.extractLsb' 3 4

/-- The input word, bits 2 to 0 of a selector word. -/
def SelWord.inWord (w : SelWord) : InWord := w.extractLsb' 0 3

/-- Step selection (rule R51): reset first, whatever the other bits are; otherwise the rule of the phase, and in
phase `IDLE` the command that `start` gives. -/
def decode (w : SelWord) : Except DecodeError Instr :=
  let start := w.inWord.start
  let line := w.inWord.lineIn
  if w.inWord.rst then .ok (.reset w.ph start line)
  else
    match Phase.ofCode? w.ph with
    | some .idle => if start then .ok (.read line) else .ok (.nop line)
    | some .hold => .ok (.hold start line)
    | some .ackA => .ok (.ackA start line)
    | some .ackB => .ok (.ackB start line)
    | some .ackC => .ok (.ackC start line)
    | some .valid => .ok (.valid start line)
    | some .bitL => .ok (.bitL start line)
    | some .bitH => .ok (.bitH start line)
    | some .check => .ok (.check start line)
    | none => .error (.reservedPhase w.ph)

/-- The decoder on any number: a number wider than the selector is rejected by name. -/
def decodeWord (w : Nat) : Except DecodeError Instr :=
  if w < 128 then decode (BitVec.ofNat 7 w) else .error (.tooWide w)

/-- The selector word of an instruction, from the patterns of rules R53 and R54. -/
def encode : Instr → SelWord
  | .reset ph start line => selector ph (InWord.mk true start line)
  | .nop line => selector Phase.idle.code (InWord.mk false false line)
  | .read line => selector Phase.idle.code (InWord.mk false true line)
  | .hold start line => selector Phase.hold.code (InWord.mk false start line)
  | .ackA start line => selector Phase.ackA.code (InWord.mk false start line)
  | .ackB start line => selector Phase.ackB.code (InWord.mk false start line)
  | .ackC start line => selector Phase.ackC.code (InWord.mk false start line)
  | .valid start line => selector Phase.valid.code (InWord.mk false start line)
  | .bitL start line => selector Phase.bitL.code (InWord.mk false start line)
  | .bitH start line => selector Phase.bitH.code (InWord.mk false start line)
  | .check start line => selector Phase.check.code (InWord.mk false start line)

/-- The bits of a table word: `nbits` of them, everything above 0. -/
def tableBits (nbits w : Nat) : Nat := w % 2 ^ nbits

/-- The instruction the decoder reads from a word of the opcode table. -/
def decodeTableWord (nbits w : Nat) : Option Instr :=
  match decodeWord (tableBits nbits w) with
  | .ok i => some i
  | .error _ => none

/-- One row of `opcode_table.json`: its mnemonic, its mask and its match. -/
structure OpcodeRow where
  mnemonic : String
  mask : SelWord
  pattern : SelWord
  deriving DecidableEq, Repr

/-- A selector word belongs to a row when it agrees with the row's match under the row's mask. -/
def OpcodeRow.matches (r : OpcodeRow) (w : SelWord) : Bool := w &&& r.mask == r.pattern

/-- The rows of `opcode_table.json`, with its numbers. -/
def opcodeTable : List OpcodeRow :=
  [ ⟨"RESET", 4, 4⟩, ⟨"NOP", 126, 0⟩, ⟨"READ", 126, 2⟩, ⟨"HOLD", 124, 8⟩,
    ⟨"ACK_A", 124, 16⟩, ⟨"ACK_B", 124, 24⟩, ⟨"ACK_C", 124, 32⟩, ⟨"VALID", 124, 40⟩,
    ⟨"BIT_L", 124, 48⟩, ⟨"BIT_H", 124, 56⟩, ⟨"CHECK", 124, 64⟩ ]

/-- The mnemonic of an instruction's row. -/
def Instr.mnemonic : Instr → String
  | .reset _ _ _ => "RESET"
  | .nop _ => "NOP"
  | .read _ => "READ"
  | .hold _ _ => "HOLD"
  | .ackA _ _ => "ACK_A"
  | .ackB _ _ => "ACK_B"
  | .ackC _ _ => "ACK_C"
  | .valid _ _ => "VALID"
  | .bitL _ _ => "BIT_L"
  | .bitH _ _ => "BIT_H"
  | .check _ _ => "CHECK"

end Sys2Proof
end

