-- ==== Sys2Proof/Machine/State.lean ====
section
/-! DEFINITION. The state vector of `10_state.md` as plain data, the reasons a step can stop, and the state that
`RESET` produces from nothing. -/

namespace Sys2Proof.Machine

/-- The result codes of rule R56, the six values `RES` can hold (rule R57: a six-constructor type). -/
inductive Result where
  /-- 0, no transaction has ended since reset. -/
  | none
  /-- 1, success. -/
  | ok
  /-- 2, a wait exceeded 500 ticks. -/
  | timeout
  /-- 3, an acknowledgment width outside its bounds. -/
  | invalidHandshake
  /-- 4, a data bit's width in neither band. -/
  | invalidBitTiming
  /-- 5, the parity byte disagrees with the checksum. -/
  | checksumMismatch
  deriving DecidableEq, Repr

/-- The sample store `RAW` (rules R24, R37): the written cells as (index, bit) pairs, indices strictly rising and
below 40 (`Memory.wf`); a cell that is not listed holds no value. -/
abbrev Memory := List (Nat × Bit)

/-- Why the machine stops at a step whose rule has been selected. -/
inductive Fault where
  /-- Raised by `CHECK` when a cell of `RAW` it reads holds no value (rule R40: "should make a read of an empty cell
  a fault"). Safe: no state that a run reaches raises it. -/
  | rawCellUnwritten
  deriving DecidableEq, Repr

/-- Why a step has no meaning. -/
inductive Refusal where
  /-- Raised by `exec` for an instruction without a meaning; no instruction of this model is left so. Safe. -/
  | notModelled (mnemonic : String)
  /-- Raised by `step` when the selector word is no instruction's: `rst = 0` and `PH` is 9 to 15 (rule R55: "refuses a
  state with `PH > 8`"). Safe: no state that a run reaches raises it. -/
  | noStepRule (reason : DecodeError)
  deriving DecidableEq, Repr

/-- Every register of rules R17 to R31, the instance's parameter, and the two fields by which the model receives the
inputs of the coming edges. -/
@[ext]
structure State where
  /-- `PH`, the phase register (rule R17). -/
  ph : PhaseWord
  /-- `BITIDX`, the index of the data bit being sampled (rule R18); legal values 0 to 39, the type's. -/
  bitidx : Fin 40
  /-- `HCNT`, the hold counter (rule R19); its width follows `HOLD_TICKS`. -/
  hcnt : Nat
  /-- `TCNT`, the pulse timer's counter (rule R20). -/
  tcnt : Ticks
  /-- `TEN`, the pulse timer's run flag (rule R21). -/
  ten : Bool
  /-- `T1`, the first acknowledgment width (rule R22). -/
  t1 : Ticks
  /-- `T2`, the second acknowledgment width (rule R23). -/
  t2 : Ticks
  /-- `RAW`, the sample store (rule R24). -/
  raw : Memory
  /-- `HUM`, the stored humidity (rule R25). -/
  hum : Byte
  /-- `TEMP`, the stored temperature (rule R26). -/
  temp : Byte
  /-- `RES`, the result code (rule R27). -/
  res : Result
  /-- `DONE`, the completion pulse (rule R28). -/
  done : Bool
  /-- `DIR`, the line direction (rule R29). -/
  dir : Direction
  /-- `LOUT`, the level driven while `DIR` is Output (rule R30). -/
  lout : Level
  /-- `MASK`, the interrupt-mask request (rule R31). -/
  mask : Bool
  /-- `HOLD_TICKS` of this instance (rules R7, R110): no step writes it. Log entry 2. -/
  holdTicks : HoldTicks
  /-- The model's own: the input words of the coming edges, the next edge's first (rule R11). Log entry 1. -/
  inputs : List InWord
  /-- The model's own: how many input words have been drawn from `Config.freeInput`. Log entry 1. -/
  draws : Nat
  deriving DecidableEq, Repr

/-- The state that `RESET` produces, with `RAW` holding no value (rules R34, R108 and the reset value of each
register's own rule), for the default `HOLD_TICKS`, with no input word given yet. -/
def State.reset : State where
  ph := 0
  bitidx := 0
  hcnt := 0
  tcnt := 0
  ten := false
  t1 := 0
  t2 := 0
  raw := []
  hum := 0
  temp := 0
  res := .none
  done := false
  dir := .input
  lout := .low
  mask := false
  holdTicks := Config.defaultHoldTicks
  inputs := []
  draws := 0

end Sys2Proof.Machine
end

