-- ==== Sys2Proof/Machine/Ops.lean ====
section
/-! DEFINITION. The named operations the step rules are written with: access to `RAW`, the register updates, the two
exit procedures, the sampling of the inputs and the wait procedure. A register that an operation does not name keeps
its value (rule R11). -/

namespace Sys2Proof.Machine

/-! ### The sample store -/

/-- `RAW[i]` in an expression (rule R39); no value when nothing has written the cell. -/
def Memory.read? : Memory → Nat → Option Bit
  | [], _ => none
  | (j, b) :: m, i => if i = j then some b else Memory.read? m i

/-- `RAW[i] <- b` (rule R38), keeping the indices strictly rising. -/
def Memory.write : Memory → Nat → Bit → Memory
  | [], i, b => [(i, b)]
  | (j, c) :: m, i, b =>
    if i < j then (i, b) :: (j, c) :: m
    else if i = j then (i, b) :: m
    else (j, c) :: Memory.write m i b

/-- The indices are strictly rising, at least `lo` and below 40. -/
def Memory.wfFrom (lo : Nat) : Memory → Bool
  | [] => true
  | (j, _) :: m => decide (lo ≤ j) && decide (j < Config.nbits) && Memory.wfFrom (j + 1) m

/-- The canonical form of the store: strictly rising indices below 40, so that equal stores are equal data. -/
def Memory.wf (m : Memory) : Bool := Memory.wfFrom 0 m

/-! ### Register updates -/

/-- `PH <- p` (rule R12: the sequencer's transfer of control). -/
def State.goto (p : Phase) (s : State) : State := { s with ph := p.code }

/-- The default write `DONE <- 0` (rule R51). -/
def State.clearDone (s : State) : State := { s with done := false }

/-- `TCNT <- 0`, the source's `timer_reset()` (rule R20). -/
def State.restartTimer (s : State) : State := { s with tcnt := 0 }

/-- `TCNT <- TCNT + 1`, one more tick of a wait that goes on (rule R71). -/
def State.countTick (s : State) : State := { s with tcnt := s.tcnt + 1 }

/-- `HCNT <- n` (rules R68, R69). -/
def State.setHcnt (n : Nat) (s : State) : State := { s with hcnt := n }

/-- `T1 <- v` (rule R74). -/
def State.setT1 (v : Ticks) (s : State) : State := { s with t1 := v }

/-- `T2 <- v` (rule R75). -/
def State.setT2 (v : Ticks) (s : State) : State := { s with t2 := v }

/-- `BITIDX <- i` (rules R76, R80). -/
def State.setBitidx (i : Fin 40) (s : State) : State := { s with bitidx := i }

/-- `RAW[BITIDX] <- b` (rule R80). -/
def State.storeBit (b : Bit) (s : State) : State := { s with raw := s.raw.write s.bitidx b }

/-- `DIR <- 1; LOUT <- 0`: the line is driven Low (rule R68). -/
def State.driveLow (s : State) : State := { s with dir := .output, lout := .low }

/-- `DIR <- 0; TEN <- 1; MASK <- 1`: the line is released, the timer starts and the masked span begins
(rule R69). -/
def State.releaseLine (s : State) : State := { s with dir := .input, ten := true, mask := true }

/-- `TEN <- 0; MASK <- 0` on the normal completion of phase 4 (rule R80). -/
def State.endSampling (s : State) : State := { s with ten := false, mask := false }

/-- `HUM <- h; TEMP <- t` (rule R86). -/
def State.publish (h t : Byte) (s : State) : State := { s with hum := h, temp := t }

/-- `Finish(code)`, the one way a transaction ends (rule R92). -/
def State.finish (code : Result) (s : State) : State :=
  { s with res := code, done := true, ten := false, mask := false, ph := Phase.idle.code }

/-- `Abort(code)`, the early exit from phases 2 to 4 (rule R91: "It is `Finish(code)`"). -/
def State.abort (code : Result) (s : State) : State := s.finish code

/-- Every register but `RAW` takes its reset value (rule R108); the parameter and the inputs to come are no
registers and stay. -/
def State.resetRegisters (s : State) : State :=
  { State.reset with raw := s.raw, holdTicks := s.holdTicks, inputs := s.inputs, draws := s.draws }

/-! ### Sampling and waiting -/

/-- The input word `I(k)` sampled `k` edges from now (rule R11): the given one, or else the environment's free draw
(`Config.freeInput`). -/
def State.inputAt (s : State) (k : Nat) : InWord :=
  match s.inputs[k]? with
  | some w => w
  | none => Config.freeInput (s.draws + (k - s.inputs.length))

/-- The inputs of the next edge have been sampled: the given word is used up, or one draw has been made. -/
def State.consumeInput (s : State) : State :=
  match s.inputs with
  | _ :: rest => { s with inputs := rest }
  | [] => { s with draws := s.draws + 1 }

/-- `Wait(L, onExit)` (rule R71): the timeout test first, then the line test, else one more tick. -/
def waitWhile (level : Level) (onExit : Ticks → State → State) (lineIn : Level) (s : State) : State :=
  if Config.tmo < s.tcnt.toNat then s.abort .timeout
  else if lineIn ≠ level then onExit s.tcnt s
  else s.countTick

/-- Lay a selector word where the next step finds it: the phase field in `PH`, the input word before the inputs
already given. -/
def State.placeSelector (s : State) (w : SelWord) : State :=
  { s with ph := w.ph, inputs := w.inWord :: s.inputs }

end Sys2Proof.Machine
end

