-- ==== Sys2Proof/Machine/Operands.lean ====
section
/-! DEFINITION. The one assembled operand of SWPE: a byte of the frame, packed most significant bit first from eight
cells of `RAW` (rules R45, R59, R83). -/

namespace Sys2Proof.Machine

/-- One step of the bit accumulator: shift left and OR the bit in (rule R83). -/
def packStep (acc : Byte) (b : Bit) : Byte := (acc <<< 1) ||| b.setWidth 8

/-- `Pack` of bits in order of arrival (rule R83). -/
def pack (bits : List Bit) : Byte := bits.foldl packStep 0

/-- The `n` cells from index `i` on, or no value if one of them holds none. -/
def Memory.readBits (m : Memory) (i : Nat) : Nat → Option (List Bit)
  | 0 => some []
  | n + 1 =>
    match m.read? i, Memory.readBits m (i + 1) n with
    | some b, some bs => some (b :: bs)
    | _, _ => none

/-- The byte of the slice of eight cells that starts at index `base` (rules R46, R59). -/
def Memory.readByte (m : Memory) (base : Nat) : Option Byte := (m.readBits base 8).map pack

/-- First index of the field `F_HUM` (rule R59). -/
def humBase : Nat := 0

/-- First index of the field `F_HUMF`, which no rule reads (rule R59). -/
def humFractionBase : Nat := 8

/-- First index of the field `F_TEMP` (rule R59). -/
def tempBase : Nat := 16

/-- First index of the field `F_TEMPF`, which no rule reads (rule R59). -/
def tempFractionBase : Nat := 24

/-- First index of the field `F_PAR` (rule R59). -/
def parityBase : Nat := 32

end Sys2Proof.Machine
end

