-- ==== Sys2Proof/Machine/Flags.lean ====
section
/-! DEFINITION. The conditions the step rules test and the codes they report: the pulse-width bands, the
acknowledgment bounds, the checksum, and the numbers of the result code. All comparisons are unsigned and strict. -/

namespace Sys2Proof.Machine

/-- The class of a data bit's high pulse (rule R14, "Symbol"). -/
inductive Symbol where
  | bit (b : Bit)
  | invalid
  deriving DecidableEq, Repr

/-- `Classify(W)`, the pulse-width discriminator (rule R78). -/
def classify (w : Ticks) : Symbol :=
  if Config.b0Lo < w.toNat ∧ w.toNat < Config.b0Hi then .bit 0
  else if Config.b1Lo < w.toNat ∧ w.toNat < Config.b1Hi then .bit 1
  else .invalid

/-- An acknowledgment width lies strictly within its bounds (rules R62, R76). -/
def ackWidthOk (t : Ticks) : Bool := decide (Config.ackLo < t.toNat ∧ t.toNat < Config.ackHi)

/-- `ChecksumOk(h, t, p)` (rule R84): the sum of exactly two bytes, modulo 256. -/
def checksumOk (h t p : Byte) : Bool := decide ((h.toNat + t.toNat) % 256 = p.toNat)

/-- The code of a result (rule R56). -/
def Result.code : Result → BitVec 3
  | .none => 0
  | .ok => 1
  | .timeout => 2
  | .invalidHandshake => 3
  | .invalidBitTiming => 4
  | .checksumMismatch => 5

/-- The bit of a direction (rule R10). -/
def directionBit : Direction → Bit
  | .input => 0
  | .output => 1

end Sys2Proof.Machine
end

