-- ==== Sys2Proof/Machine/Checksum.lean ====
section
/-! DEFINITION. Phase 5, decode and checksum: `CHECK` (rule R86). -/

namespace Sys2Proof.Machine

/-- What `CHECK` does with the three bytes it has packed (rule R86). -/
def checkBytes (h t p : Byte) (s : State) : State :=
  if checksumOk h t p then (s.publish h t).finish .ok else s.finish .checksumMismatch

/-- `CHECK` (rule R86): pack the humidity, temperature and parity fields and publish if the checksum holds. A field
with a cell that holds no value is a fault (rule R40). -/
def execCheck (_start : Bool) (_lineIn : Level) (s : State) : Host.Outcome State Fault Refusal :=
  match s.raw.readByte humBase, s.raw.readByte tempBase, s.raw.readByte parityBase with
  | some h, some t, some p => .next (checkBytes h t p s.clearDone)
  | _, _, _ => .fault .rawCellUnwritten

end Sys2Proof.Machine
end

