-- ==== Sys2Proof/Machine/Command.lean ====
section
/-! DEFINITION. The reset operation and the two commands of phase `IDLE`: `RESET` (rule R108), `NOP` (rule R67),
`READ` (rule R68), and phase 1, `HOLD` (rule R69). -/

namespace Sys2Proof.Machine

/-- `RESET` (rule R108): every register but `RAW`; `PH`, `start` and `line_in` are not looked at. -/
def execReset (_ph : PhaseWord) (_start : Bool) (_lineIn : Level) (s : State) :
    Host.Outcome State Fault Refusal :=
  .next s.resetRegisters

/-- `NOP` (rule R67): nothing but the default `DONE <- 0`. -/
def execNop (_lineIn : Level) (s : State) : Host.Outcome State Fault Refusal :=
  .next s.clearDone

/-- `READ` (rule R68): drive the line Low and begin the hold. -/
def execRead (_lineIn : Level) (s : State) : Host.Outcome State Fault Refusal :=
  .next ((s.clearDone.driveLow.setHcnt 0).goto .hold)

/-- `HOLD` (rule R69): release at the last of `HOLD_TICKS` edges, count before it. -/
def execHold (_start : Bool) (_lineIn : Level) (s : State) : Host.Outcome State Fault Refusal :=
  .next (if s.hcnt = s.holdTicks.val - 1 then s.clearDone.releaseLine.restartTimer.goto .ackA
    else s.clearDone.setHcnt (s.hcnt + 1))

end Sys2Proof.Machine
end

