-- ==== Sys2Proof/Machine/Response.lean ====
section
/-! DEFINITION. Phases 2 and 3: the three response waits `ACK_A`, `ACK_B`, `ACK_C` (rules R73 to R75) and the
validation `VALID` (rule R76). -/

namespace Sys2Proof.Machine

/-- How `ACK_A` ends: the elapsed value is discarded (rule R73). -/
def ackAExit (_elapsed : Ticks) (s : State) : State := s.restartTimer.goto .ackB

/-- How `ACK_B` ends: the elapsed value is the first acknowledgment width (rule R74). -/
def ackBExit (elapsed : Ticks) (s : State) : State := (s.setT1 elapsed).restartTimer.goto .ackC

/-- How `ACK_C` ends: the elapsed value is the second acknowledgment width (rule R75). -/
def ackCExit (elapsed : Ticks) (s : State) : State := (s.setT2 elapsed).restartTimer.goto .valid

/-- `ACK_A` (rule R73): wait while the line is High. -/
def execAckA (_start : Bool) (lineIn : Level) (s : State) : Host.Outcome State Fault Refusal :=
  .next (waitWhile .high ackAExit lineIn s.clearDone)

/-- `ACK_B` (rule R74): wait while the line is Low. -/
def execAckB (_start : Bool) (lineIn : Level) (s : State) : Host.Outcome State Fault Refusal :=
  .next (waitWhile .low ackBExit lineIn s.clearDone)

/-- `ACK_C` (rule R75): wait while the line is High. -/
def execAckC (_start : Bool) (lineIn : Level) (s : State) : Host.Outcome State Fault Refusal :=
  .next (waitWhile .high ackCExit lineIn s.clearDone)

/-- `VALID` (rule R76): both widths within the bounds, or the handshake is invalid. -/
def execValid (_start : Bool) (_lineIn : Level) (s : State) : Host.Outcome State Fault Refusal :=
  .next (if ackWidthOk s.t1 && ackWidthOk s.t2 then (s.clearDone.setBitidx 0).restartTimer.goto .bitL
    else s.clearDone.abort .invalidHandshake)

end Sys2Proof.Machine
end

