-- ==== Sys2Proof/Machine/Sampling.lean ====
section
/-! DEFINITION. Phase 4, bit sampling: the two waits of a data bit, `BIT_L` (rule R79) and `BIT_H` (rule R80), which
form the 40-iteration loop of rule R81. -/

namespace Sys2Proof.Machine

/-- How `BIT_L` ends: the low time before the bit is discarded (rule R79). -/
def bitLExit (_elapsed : Ticks) (s : State) : State := s.restartTimer.goto .bitH

/-- How `BIT_H` ends (rule R80): classify the width, store the bit, and go on to the next bit, or to `CHECK` after
bit 39; an invalid width stores nothing. -/
def bitHExit (w : Ticks) (s : State) : State :=
  match classify w with
  | .invalid => s.abort .invalidBitTiming
  | .bit b =>
    if s.bitidx = 39 then (s.storeBit b).endSampling.restartTimer.goto .check
    else ((s.storeBit b).setBitidx (s.bitidx + 1)).restartTimer.goto .bitL

/-- `BIT_L` (rule R79): wait while the line is Low. -/
def execBitL (_start : Bool) (lineIn : Level) (s : State) : Host.Outcome State Fault Refusal :=
  .next (waitWhile .low bitLExit lineIn s.clearDone)

/-- `BIT_H` (rule R80): wait while the line is High. -/
def execBitH (_start : Bool) (lineIn : Level) (s : State) : Host.Outcome State Fault Refusal :=
  .next (waitWhile .high bitHExit lineIn s.clearDone)

end Sys2Proof.Machine
end

