-- ==== Sys2Proof/Machine/Dispatch.lean ====
section
/-! DEFINITION. The meaning of each instruction, one arm per constructor. -/

namespace Sys2Proof.Machine

def exec (i : Instr) (s : State) : Host.Outcome State Fault Refusal :=
  match i with
  | .reset ph start lineIn => Sys2Proof.Machine.execReset ph start lineIn s
  | .nop lineIn => Sys2Proof.Machine.execNop lineIn s
  | .read lineIn => Sys2Proof.Machine.execRead lineIn s
  | .hold start lineIn => Sys2Proof.Machine.execHold start lineIn s
  | .ackA start lineIn => Sys2Proof.Machine.execAckA start lineIn s
  | .ackB start lineIn => Sys2Proof.Machine.execAckB start lineIn s
  | .ackC start lineIn => Sys2Proof.Machine.execAckC start lineIn s
  | .valid start lineIn => Sys2Proof.Machine.execValid start lineIn s
  | .bitL start lineIn => Sys2Proof.Machine.execBitL start lineIn s
  | .bitH start lineIn => Sys2Proof.Machine.execBitH start lineIn s
  | .check start lineIn => Sys2Proof.Machine.execCheck start lineIn s

end Sys2Proof.Machine
end

