-- ==== Sys2Proof/Machine/Step.lean ====
section
/-! DEFINITION. One rising edge of `clk` (rules R6, R11, R51): the inputs are sampled, the selector word of the phase
register and the input word selects one step rule, and that rule fires. -/

namespace Sys2Proof.Machine

/-- `S(k) = Step(S(k-1), I(k))` (rule R11). -/
def step (s : State) : Host.Outcome State Fault Refusal :=
  match decode (selector s.ph (s.inputAt 0)) with
  | .ok i => exec i s.consumeInput
  | .error e => .refused (.noStepRule e)

/-- The state whose next step runs the instruction of a table word (log entry 3). -/
def State.withFetchWord (s : State) (nbits w : Nat) : State :=
  s.placeSelector (BitVec.ofNat 7 (tableBits nbits w))

end Sys2Proof.Machine
end

