-- ==== Sys2Proof/Machine/Stimulus.lean ====
section
/-! DEFINITION. The stimulus language of `30_encoding.md` section 6: the primitive statements of rule R65 and the
macros of rule R66, each the list of input words of its edges. It is test syntax and no part of the hardware; a
stimulus is applied to a state by giving it as the inputs of the coming edges. -/

namespace Sys2Proof.Machine

/-- `RST*n` (rule R65). -/
def stimRst (n : Nat) : List InWord := List.replicate n (InWord.mk true false .high)

/-- `START` (rule R65). -/
def stimStart : List InWord := [InWord.mk false true .high]

/-- `H*n` and `L*n` (rule R65). -/
def stimRun (level : Level) (n : Nat) : List InWord := List.replicate n (InWord.mk false false level)

/-- `SH*n` and `SL*n` (rule R65): the same with `start` held at 1. -/
def stimStartRun (level : Level) (n : Nat) : List InWord := List.replicate n (InWord.mk false true level)

/-- `HOLDW` (rule R66): the edges that phase `HOLD` consumes. -/
def stimHoldw (holdTicks : HoldTicks) : List InWord := stimRun .high holdTicks.val

/-- `RESP(a, t1, t2)` (rule R66): the arguments are the measured values. -/
def stimResp (a t1 t2 : Nat) : List InWord :=
  stimRun .high a ++ stimRun .low (t1 + 1) ++ stimRun .high (t2 + 1)

/-- `VGAP` (rule R66): the Low sample that ends `ACK_C`. -/
def stimVgap : List InWord := stimRun .low 1

/-- `SYM(l, w)` (rule R66): `BIT_L` elapsed = l, `W` = w. -/
def stimSym (l w : Nat) : List InWord := stimRun .low (l + 1) ++ stimRun .high (w + 1)

/-- `B0` and `B1` (rule R66). -/
def stimBit (b : Bool) : List InWord := if b then stimSym 50 70 else stimSym 50 25

/-- `BYTE(v)` (rule R66): most significant bit first. -/
def stimByte (v : Byte) : List InWord :=
  stimBit (v.getLsbD 7) ++ stimBit (v.getLsbD 6) ++ stimBit (v.getLsbD 5) ++ stimBit (v.getLsbD 4) ++
    stimBit (v.getLsbD 3) ++ stimBit (v.getLsbD 2) ++ stimBit (v.getLsbD 1) ++ stimBit (v.getLsbD 0)

/-- `FRAME(h, hf, t, tf, p)` (rule R66). -/
def stimFrame (h hf t tf p : Byte) : List InWord :=
  stimByte h ++ stimByte hf ++ stimByte t ++ stimByte tf ++ stimByte p

/-- `END` (rule R66): the Low sample that ends the last `BIT_H`. -/
def stimEnd : List InWord := stimRun .low 1

/-- `FIN` (rule R66): the edge phase `CHECK` consumes. -/
def stimFin : List InWord := stimRun .high 1

/-- Symbols with the given (low, high) measured widths, in order. -/
def stimSymbols (syms : List (Nat × Nat)) : List InWord := syms.flatMap fun lw => stimSym lw.1 lw.2

/-- A complete transaction, `START HOLDW RESP(a, t1, t2) VGAP <symbols> END FIN` (rule R66). -/
def stimTransaction (holdTicks : HoldTicks) (a t1 t2 : Nat) (syms : List (Nat × Nat)) : List InWord :=
  stimStart ++ stimHoldw holdTicks ++ stimResp a t1 t2 ++ stimVgap ++ stimSymbols syms ++ stimEnd ++ stimFin

/-- The state with a stimulus before the inputs already given. -/
def State.withStimulus (s : State) (stim : List InWord) : State := { s with inputs := stim ++ s.inputs }

end Sys2Proof.Machine
end

