-- ==== Sys2Proof/Machine/Ports.lean ====
section
/-! DEFINITION. The output ports (rules R15, R16) as functions of the registers, and the 25-bit output word of
rule R58. -/

namespace Sys2Proof.Machine

/-- The nine output ports of rule R15. -/
structure Outputs where
  lineOe : Bit
  lineOut : Bit
  busy : Bool
  done : Bool
  res : BitVec 3
  hum : Byte
  temp : Byte
  maskReq : Bool
  tmrRun : Bool
  deriving DecidableEq, Repr

/-- `Out(S)` (rule R16): no input reaches an output. -/
def State.outputs (s : State) : Outputs where
  lineOe := directionBit s.dir
  lineOut := s.lout.bit
  busy := decide (s.ph ≠ Phase.idle.code)
  done := s.done
  res := s.res.code
  hum := s.hum
  temp := s.temp
  maskReq := s.mask
  tmrRun := s.ten

/-- `OUT[24:0]` (rule R58). -/
def Outputs.word (o : Outputs) : BitVec 25 :=
  o.lineOe ++ o.lineOut ++ BitVec.ofBool o.busy ++ BitVec.ofBool o.done ++ o.res ++ o.hum ++ o.temp ++
    BitVec.ofBool o.maskReq ++ BitVec.ofBool o.tmrRun

end Sys2Proof.Machine
end

