-- ==== Sys2Proof/Safety.lean ====
section
/-! DEFINITION. The terms claims about whole runs use: runs of several edges, the states a run can reach, the
invariant of the state as a whole (`10_state.md` section 3), and step selection by phase. -/

namespace Sys2Proof.Machine

/-- `n` edges; the run stops at the first fault or refusal. -/
def steps : Nat → State → Host.Outcome State Fault Refusal
  | 0, s => .next s
  | n + 1, s =>
    match step s with
    | .next t => steps n t
    | .fault r => .fault r
    | .refused r => .refused r

/-- A run of `n` edges is safe when no edge of it faults or is refused. -/
def SafeRun (n : Nat) (s : State) : Prop := ∃ t, steps n s = .next t

/-- The inputs of `n` edges have been sampled; the registers are as before. -/
def State.afterInputs (s : State) (n : Nat) : State :=
  { s with inputs := s.inputs.drop n, draws := s.draws + (n - s.inputs.length) }

/-- The phase is one of phases 2 to 4, from timer start through bit sampling (rule R35 (b)). -/
abbrev inTimedSpan (ph : PhaseWord) : Prop :=
  ph = Phase.ackA.code ∨ ph = Phase.ackB.code ∨ ph = Phase.ackC.code ∨ ph = Phase.valid.code ∨
    ph = Phase.bitL.code ∨ ph = Phase.bitH.code

/-- The bounds of rule R32, the flag and phase invariants of rule R35, the canonical form of `RAW`, and the cells that
are written whenever the loop of rule R81 or `CHECK` relies on them (rule R40). -/
structure State.Inv (s : State) : Prop where
  phase_legal : s.ph.toNat ≤ 8
  hcnt_bound : s.hcnt ≤ s.holdTicks.val - 1
  tcnt_bound : s.tcnt.toNat ≤ 501
  t1_bound : s.t1.toNat ≤ 500
  t2_bound : s.t2.toNat ≤ 500
  driven_in_hold : s.dir = .output ↔ s.ph = Phase.hold.code
  timed_in_span : s.ten = true ↔ inTimedSpan s.ph
  mask_is_ten : s.mask = s.ten
  lout_low : s.lout = .low
  done_in_idle : s.done = true → s.ph = Phase.idle.code
  store_canonical : s.raw.wf = true
  sampled_below : s.ph = Phase.bitL.code ∨ s.ph = Phase.bitH.code →
    ∀ i, i < s.bitidx.val → (s.raw.read? i).isSome = true
  sampled_all : s.ph = Phase.check.code → ∀ i, i < Config.nbits → (s.raw.read? i).isSome = true

/-- A state that `RESET` produces with `RAW` holding no value (rule R34), for any `HOLD_TICKS` and any inputs to
come. -/
def State.Fresh (s : State) : Prop :=
  s = { State.reset with holdTicks := s.holdTicks, inputs := s.inputs, draws := s.draws }

/-- The states that a run from a reset state reaches (rules R32, R34). -/
inductive Reachable : State → Prop where
  | fresh {s : State} : s.Fresh → Reachable s
  | edge {s t : State} : Reachable s → step s = .next t → Reachable t

/-- At an edge without reset in phase `p`, the step fires the rule `mk` names, on the sampled `start` and `line_in`
(rule R51 (2)). -/
def SelectedInPhase (p : Phase) (mk : Bool → Level → Instr) : Prop :=
  ∀ s : State, s.ph = p.code → (s.inputAt 0).rst = false →
    step s = exec (mk (s.inputAt 0).start (s.inputAt 0).lineIn) s.consumeInput

/-- The waiting level of a wait phase (rules R73, R74, R75, R79, R80); the other phases wait for nothing. -/
def waitLevel : Phase → Option Level
  | .ackA => some .high
  | .ackB => some .low
  | .ackC => some .high
  | .bitL => some .low
  | .bitH => some .high
  | .idle => none
  | .hold => none
  | .valid => none
  | .check => none

/-- How a wait phase ends with an elapsed value, its `onExit` (rule R71). -/
def waitExit : Phase → Ticks → State → State
  | .ackA => ackAExit
  | .ackB => ackBExit
  | .ackC => ackCExit
  | .bitL => bitLExit
  | .bitH => bitHExit
  | .idle => fun _ s => s
  | .hold => fun _ s => s
  | .valid => fun _ s => s
  | .check => fun _ s => s

/-- The most edges a transaction can take from the edge after its `READ` to its completion edge (rule R120: at most
`HOLD_TICKS + 24365` counting the `READ` edge). -/
def longestRemainder (h : HoldTicks) : Nat := h.val + 24364

end Sys2Proof.Machine
end

