-- ==== Sys2Proof/Certificates/Slice0/Obligations.lean ====
section
/-! DEFINITION. The statements for the provers. -/

open Sys2Proof Sys2Proof.Machine

/-! ### Encoding and selection -/

/-- `30_encoding.md`, opening paragraph, rules R52 to R54: no bit of a selector word is dropped on the way to the
instruction and back, for every instruction with every operand. -/
def Obligations.DecodeOfEncodeIsTheInstruction : Prop :=
  ∀ i : Instr, decode (encode i) = .ok i ∧ decodeTableWord 8 (encode i).toNat = some i

/-- The other direction: each selector word that decodes is the encoding of what it decodes to. -/
def Obligations.EncodeOfDecodeIsTheWord : Prop :=
  ∀ (w : SelWord) (i : Instr), decode w = .ok i → encode i = w

/-- Words written out from the patterns of rules R53 and R54, one or two for each row. -/
def Obligations.WrittenOutWordsDecode : Prop :=
  decode 0b0000100 = .ok (.reset 0 false .low) ∧ decode 0b1111111 = .ok (.reset 15 true .high) ∧
  decode 0b0000001 = .ok (.nop .high) ∧ decode 0b0000010 = .ok (.read .low) ∧
  decode 0b0001001 = .ok (.hold false .high) ∧ decode 0b0010010 = .ok (.ackA true .low) ∧
  decode 0b0011001 = .ok (.ackB false .high) ∧ decode 0b0100000 = .ok (.ackC false .low) ∧
  decode 0b0101011 = .ok (.valid true .high) ∧ decode 0b0110001 = .ok (.bitL false .high) ∧
  decode 0b0111000 = .ok (.bitH false .low) ∧ decode 0b1000011 = .ok (.check true .high)

/-- `30_encoding.md`, opening paragraph: the rows cover every selector value with `PH <= 8`, and with `rst = 0` no row
matches `PH` 9 to 15; a number wider than seven bits is no selector. -/
def Obligations.DecoderAcceptsExactlyWellFormedWords : Prop :=
  ∀ w : Nat, (∃ i, decodeWord w = .ok i) ↔ selectorWellFormed w = true

/-- `30_encoding.md`, opening paragraph: the rows are disjoint, and the decoder picks the one row that matches. -/
def Obligations.DecoderPicksTheOneMatchingRow : Prop :=
  ∀ w : SelWord, (opcodeTable.filter fun r => r.matches w).map OpcodeRow.mnemonic =
    match decode w with
    | .ok i => [i.mnemonic]
    | .error _ => []

/-- A step runs the instruction the decoder reads from the phase register and the sampled inputs, after the inputs of
that one edge have been used up (rule R11). -/
def Obligations.StepRunsTheDecodedInstruction : Prop :=
  (∀ (s : State) (i : Instr), decode (selector s.ph (s.inputAt 0)) = .ok i → step s = exec i s.consumeInput) ∧
  (∀ s : State, s.consumeInput = s.afterInputs 1) ∧
  (∀ (s : State) (w : InWord) (rest : List InWord), s.inputs = w :: rest →
    s.inputAt 0 = w ∧ s.consumeInput = { s with inputs := rest }) ∧
  (∀ s : State, s.inputs = [] →
    s.inputAt 0 = Config.freeInput s.draws ∧ s.consumeInput = { s with draws := s.draws + 1 })

/-- A table word laid where the step finds it is the instruction the very next step runs, with `PH` at the word's
phase field and every other field as it was. -/
def Obligations.PlacedTableWordRuns : Prop :=
  ∀ (s : State) (nbits w : Nat) (i : Instr), decodeTableWord nbits w = some i →
    step (s.withFetchWord nbits w) = exec i { s with ph := BitVec.ofNat 4 (w % 2 ^ nbits / 8) }

/-- Rule R51: reset first, whatever the rest; otherwise the rule of the phase; `DONE` is 1 after an edge only where the
rule that fired ended the transaction, and never after the rules that have no exit; selection is total on every state
with `PH <= 8`. -/
def Obligations.StepSelectionFollowsResetThenPhase : Prop :=
  (∀ s : State, (s.inputAt 0).rst = true →
    step s = exec (.reset s.ph (s.inputAt 0).start (s.inputAt 0).lineIn) s.consumeInput) ∧
  (∀ s : State, s.ph = Phase.idle.code → (s.inputAt 0).rst = false → (s.inputAt 0).start = false →
    step s = exec (.nop (s.inputAt 0).lineIn) s.consumeInput) ∧
  (∀ s : State, s.ph = Phase.idle.code → (s.inputAt 0).rst = false → (s.inputAt 0).start = true →
    step s = exec (.read (s.inputAt 0).lineIn) s.consumeInput) ∧
  SelectedInPhase .hold .hold ∧ SelectedInPhase .ackA .ackA ∧ SelectedInPhase .ackB .ackB ∧
  SelectedInPhase .ackC .ackC ∧ SelectedInPhase .valid .valid ∧ SelectedInPhase .bitL .bitL ∧
  SelectedInPhase .bitH .bitH ∧ SelectedInPhase .check .check ∧
  (∀ (i : Instr) (s t : State), exec i s = .next t → t.done = true →
    t.res ≠ .none ∧ t.ph = Phase.idle.code ∧ t.ten = false ∧ t.mask = false ∧
    (∀ ph st l, i ≠ .reset ph st l) ∧ (∀ l, i ≠ .nop l) ∧ (∀ l, i ≠ .read l) ∧ (∀ st l, i ≠ .hold st l)) ∧
  (∀ s : State, s.ph.toNat ≤ 8 → ∃ i, decode (selector s.ph (s.inputAt 0)) = .ok i)

/-- A state with `PH` 9 to 15 is refused unless it is reset: the model's choice, log entry 6 (DESIGN CHOICE), one of the
two treatments rule R55 leaves open. No rule leads into such a state and none is reachable, as rule R55 says. -/
def Obligations.ReservedPhasesAreRefusedAndNeverEntered : Prop :=
  (∀ s : State, 8 < s.ph.toNat → (s.inputAt 0).rst = false →
    step s = .refused (.noStepRule (.reservedPhase s.ph))) ∧
  (∀ s t : State, step s = .next t → t.ph.toNat ≤ 8) ∧
  (∀ s : State, Reachable s → s.ph.toNat ≤ 8)

/-! ### Reset -/

/-- Rule R108: `RESET` writes every register but `RAW` with its reset value, in any phase and whatever `start` and
`line_in` are; the outputs after it are all 0. -/
def Obligations.ResetWritesEveryRegisterButRaw : Prop :=
  (∀ s : State, (s.inputAt 0).rst = true →
    step s = exec (.reset s.ph (s.inputAt 0).start (s.inputAt 0).lineIn) s.consumeInput) ∧
  ∀ (ph : PhaseWord) (start : Bool) (lineIn : Level) (s : State), ∃ t : State,
    exec (.reset ph start lineIn) s = .next t ∧
    t = { ph := Phase.idle.code, bitidx := 0, hcnt := 0, tcnt := 0, ten := false, t1 := 0, t2 := 0, raw := s.raw,
          hum := 0, temp := 0, res := .none, done := false, dir := .input, lout := .low, mask := false,
          holdTicks := s.holdTicks, inputs := s.inputs, draws := s.draws } ∧
    t.outputs.word = 0

/-- Rule R107: reset may be held for any number of edges, each performing rule R108 again with the same result, and it
has priority in every phase. -/
def Obligations.HeldResetGivesTheSameState : Prop :=
  ∀ (n : Nat) (s : State), (∀ k, k ≤ n → (s.inputAt k).rst = true) →
    steps (n + 1) s = .next (s.afterInputs (n + 1)).resetRegisters

/-- Rule R109: after reset the engine is in `IDLE`, not busy, with the line released, the timer stopped and no mask
request, and it waits there for `READ`, for any number of edges. -/
def Obligations.AfterResetTheEngineWaitsInIdle : Prop :=
  (∀ s : State, s.resetRegisters.ph = Phase.idle.code ∧ s.resetRegisters.outputs.busy = false ∧
    s.resetRegisters.outputs.lineOe = 0 ∧ s.resetRegisters.outputs.tmrRun = false ∧
    s.resetRegisters.outputs.maskReq = false) ∧
  (∀ (n : Nat) (s : State), (∀ k, k < n → (s.inputAt k).rst = false ∧ (s.inputAt k).start = false) →
    steps n s.resetRegisters = .next (s.resetRegisters.afterInputs n))

/-- The state right after reset, for every `HOLD_TICKS` and every sequence of inputs, meets the invariant; the model's
`State.reset` is one of these states. -/
def Obligations.FreshStatesMeetTheInvariant : Prop :=
  State.reset.Fresh ∧ ∀ s : State, s.Fresh → s.Inv

/-! ### Phase `IDLE` and phase 1 -/

/-- Rule R67: `NOP` makes no write other than the default `DONE <- 0`, for either line level. -/
def Obligations.NopOnlyEndsTheDonePulse : Prop :=
  (∀ s : State, s.ph = Phase.idle.code → (s.inputAt 0).rst = false → (s.inputAt 0).start = false →
    step s = exec (.nop (s.inputAt 0).lineIn) s.consumeInput) ∧
  ∀ (lineIn : Level) (s : State), exec (.nop lineIn) s = .next { s with done := false }

/-- Rule R68: `READ` drives the line Low and begins the hold, from every state and for either line level; the ports
show it from the edge on. -/
def Obligations.ReadDrivesTheLineLow : Prop :=
  (∀ s : State, s.ph = Phase.idle.code → (s.inputAt 0).rst = false → (s.inputAt 0).start = true →
    step s = exec (.read (s.inputAt 0).lineIn) s.consumeInput) ∧
  ∀ (lineIn : Level) (s : State), ∃ t : State, exec (.read lineIn) s = .next t ∧
    t = { s with done := false, dir := .output, lout := .low, hcnt := 0, ph := Phase.hold.code } ∧
    t.outputs.lineOe = 1 ∧ t.outputs.lineOut = 0 ∧ t.outputs.busy = true

/-- Rule R69: `HOLD` counts, and releases the line, starts the timer and raises the mask request at the last of exactly
`HOLD_TICKS` consecutive edges. -/
def Obligations.HoldLastsExactlyHoldTicks : Prop :=
  SelectedInPhase .hold .hold ∧
  (∀ (start : Bool) (lineIn : Level) (s : State), s.hcnt = s.holdTicks.val - 1 →
    exec (.hold start lineIn) s =
      .next { s with done := false, dir := .input, ten := true, mask := true, tcnt := 0, ph := Phase.ackA.code }) ∧
  (∀ (start : Bool) (lineIn : Level) (s : State), s.hcnt ≠ s.holdTicks.val - 1 →
    exec (.hold start lineIn) s = .next { s with done := false, hcnt := s.hcnt + 1 }) ∧
  (∀ s : State, s.ph = Phase.hold.code → s.hcnt = 0 →
    (∀ k, k < s.holdTicks.val → (s.inputAt k).rst = false) →
    (∀ k, 0 < k → k < s.holdTicks.val → steps k s = .next { s.afterInputs k with done := false, hcnt := k }) ∧
    steps s.holdTicks.val s =
      .next { s.afterInputs s.holdTicks.val with
        done := false, hcnt := s.holdTicks.val - 1, dir := .input, ten := true, mask := true, tcnt := 0,
        ph := Phase.ackA.code })

/-- Rule R70: during a transaction `start` has no effect at all, and without reset the transaction leaves for `IDLE`
only by completing. -/
def Obligations.StartIsIgnoredDuringATransaction : Prop :=
  (∀ (s : State) (w w' : InWord) (rest : List InWord), s.ph ≠ Phase.idle.code →
    w.rst = false → w'.rst = false → w.lineIn = w'.lineIn →
    step { s with inputs := w :: rest } = step { s with inputs := w' :: rest }) ∧
  (∀ s t : State, s.ph ≠ Phase.idle.code → (s.inputAt 0).rst = false → step s = .next t →
    t.ph = Phase.idle.code → t.done = true)

/-- Rule R42 (its effect on the next state): outside the five wait phases, at a reset edge, and once the timeout test
fires, the line level has no effect. -/
def Obligations.LineIsLookedAtOnlyByOpenWaits : Prop :=
  ∀ (s : State) (w w' : InWord) (rest : List InWord), w.rst = w'.rst → w.start = w'.start →
    (w.rst = true ∨ s.ph = Phase.idle.code ∨ s.ph = Phase.hold.code ∨ s.ph = Phase.valid.code ∨
      s.ph = Phase.check.code ∨ 500 < s.tcnt.toNat) →
    step { s with inputs := w :: rest } = step { s with inputs := w' :: rest }

/-! ### The wait procedure, phases 2 and 3 -/

/-- Rule R71: a wait does exactly one of three things, tested in this order, and the five wait phases are waits. -/
def Obligations.WaitDoesOneOfThreeThings : Prop :=
  (∀ (level : Level) (onExit : Ticks → State → State) (lineIn : Level) (s : State),
    (500 < s.tcnt.toNat → waitWhile level onExit lineIn s =
      { s with res := .timeout, done := true, ten := false, mask := false, ph := Phase.idle.code }) ∧
    (s.tcnt.toNat ≤ 500 → lineIn ≠ level → waitWhile level onExit lineIn s = onExit s.tcnt s) ∧
    (s.tcnt.toNat ≤ 500 → lineIn = level → waitWhile level onExit lineIn s = { s with tcnt := s.tcnt + 1 })) ∧
  (∀ (start : Bool) (lineIn : Level) (s : State),
    exec (.ackA start lineIn) s = .next (waitWhile .high ackAExit lineIn { s with done := false }) ∧
    exec (.ackB start lineIn) s = .next (waitWhile .low ackBExit lineIn { s with done := false }) ∧
    exec (.ackC start lineIn) s = .next (waitWhile .high ackCExit lineIn { s with done := false }) ∧
    exec (.bitL start lineIn) s = .next (waitWhile .low bitLExit lineIn { s with done := false }) ∧
    exec (.bitH start lineIn) s = .next (waitWhile .high bitHExit lineIn { s with done := false })) ∧
  (∀ (elapsed : Ticks) (s : State), (ackAExit elapsed s).tcnt = 0 ∧ (ackBExit elapsed s).tcnt = 0 ∧
    (ackCExit elapsed s).tcnt = 0 ∧ (bitLExit elapsed s).tcnt = 0 ∧
    (classify elapsed ≠ .invalid → (bitHExit elapsed s).tcnt = 0))

/-- Rule R72: a wait entered with `TCNT = 0` that finds `n <= 500` samples at its level ends at the first sample that
is not, with elapsed `n`, after `n + 1` edges; one that finds 501 ends by timeout at its 502nd edge, whatever the
line shows there. Until then it counts. -/
def Obligations.WaitEndsByElapsedOrTimeout : Prop :=
  ∀ (p : Phase) (level : Level) (s : State), waitLevel p = some level → s.ph = p.code → s.tcnt = 0 →
    (∀ n, n ≤ 500 → (∀ k, k < n → (s.inputAt k).rst = false ∧ (s.inputAt k).lineIn = level) →
      (s.inputAt n).rst = false → (s.inputAt n).lineIn ≠ level →
      steps (n + 1) s =
        .next (waitExit p (BitVec.ofNat 10 n)
          { s.afterInputs (n + 1) with done := false, tcnt := BitVec.ofNat 10 n })) ∧
    ((∀ k, k < 501 → (s.inputAt k).rst = false ∧ (s.inputAt k).lineIn = level) →
      (∀ k, 0 < k → k ≤ 501 → steps k s =
        .next { s.afterInputs k with done := false, tcnt := BitVec.ofNat 10 k }) ∧
      ((s.inputAt 501).rst = false →
        steps 502 s =
          .next { s.afterInputs 502 with
            tcnt := 501, res := .timeout, done := true, ten := false, mask := false, ph := Phase.idle.code }))

/-- Rule R73: `ACK_A` waits while the line is High and discards the elapsed value. -/
def Obligations.AckAWaitsForLow : Prop :=
  SelectedInPhase .ackA .ackA ∧
  ∀ (start : Bool) (lineIn : Level) (s : State),
    (500 < s.tcnt.toNat → exec (.ackA start lineIn) s =
      .next { s with res := .timeout, done := true, ten := false, mask := false, ph := Phase.idle.code }) ∧
    (s.tcnt.toNat ≤ 500 → lineIn = .low → exec (.ackA start lineIn) s =
      .next { s with done := false, tcnt := 0, ph := Phase.ackB.code }) ∧
    (s.tcnt.toNat ≤ 500 → lineIn = .high → exec (.ackA start lineIn) s =
      .next { s with done := false, tcnt := s.tcnt + 1 })

/-- Rule R74: `ACK_B` waits while the line is Low and records `T1`. -/
def Obligations.AckBRecordsTheLowWidth : Prop :=
  SelectedInPhase .ackB .ackB ∧
  ∀ (start : Bool) (lineIn : Level) (s : State),
    (500 < s.tcnt.toNat → exec (.ackB start lineIn) s =
      .next { s with res := .timeout, done := true, ten := false, mask := false, ph := Phase.idle.code }) ∧
    (s.tcnt.toNat ≤ 500 → lineIn = .high → exec (.ackB start lineIn) s =
      .next { s with done := false, t1 := s.tcnt, tcnt := 0, ph := Phase.ackC.code }) ∧
    (s.tcnt.toNat ≤ 500 → lineIn = .low → exec (.ackB start lineIn) s =
      .next { s with done := false, tcnt := s.tcnt + 1 })

/-- Rule R75: `ACK_C` waits while the line is High and records `T2`. -/
def Obligations.AckCRecordsTheHighWidth : Prop :=
  SelectedInPhase .ackC .ackC ∧
  ∀ (start : Bool) (lineIn : Level) (s : State),
    (500 < s.tcnt.toNat → exec (.ackC start lineIn) s =
      .next { s with res := .timeout, done := true, ten := false, mask := false, ph := Phase.idle.code }) ∧
    (s.tcnt.toNat ≤ 500 → lineIn = .low → exec (.ackC start lineIn) s =
      .next { s with done := false, t2 := s.tcnt, tcnt := 0, ph := Phase.valid.code }) ∧
    (s.tcnt.toNat ≤ 500 → lineIn = .high → exec (.ackC start lineIn) s =
      .next { s with done := false, tcnt := s.tcnt + 1 })

/-- Rule R76: `VALID` passes exactly when both widths lie strictly between 60 and 100, whatever the inputs. -/
def Obligations.ValidTestsBothWidthsStrictly : Prop :=
  SelectedInPhase .valid .valid ∧
  ∀ (start : Bool) (lineIn : Level) (s : State),
    (60 < s.t1.toNat ∧ s.t1.toNat < 100 ∧ 60 < s.t2.toNat ∧ s.t2.toNat < 100 →
      exec (.valid start lineIn) s =
        .next { s with done := false, bitidx := 0, tcnt := 0, ph := Phase.bitL.code }) ∧
    (¬(60 < s.t1.toNat ∧ s.t1.toNat < 100 ∧ 60 < s.t2.toNat ∧ s.t2.toNat < 100) →
      exec (.valid start lineIn) s =
        .next { s with res := .invalidHandshake, done := true, ten := false, mask := false,
                       ph := Phase.idle.code })

/-- Rule R77: a High run of `a`, a Low run of `m1` and a High run of `m2` samples, ended by a Low sample, give
`T1 = m1 - 1` and `T2 = m2 - 1` in `(a + 1) + m1 + m2` edges. The upper limit 501 on `m1` and `m2` keeps the waits
within the timeout of rule R72. -/
def Obligations.AckRunsGiveTheWidths : Prop :=
  ∀ (s : State) (a m1 m2 : Nat) (rest : List InWord), s.ph = Phase.ackA.code → s.tcnt = 0 →
    a ≤ 500 → 1 ≤ m1 → m1 ≤ 501 → 1 ≤ m2 → m2 ≤ 501 →
    s.inputs = stimRun .high a ++ stimRun .low m1 ++ stimRun .high m2 ++ stimRun .low 1 ++ rest →
    steps (a + 1 + m1 + m2) s =
      .next { s with done := false, t1 := BitVec.ofNat 10 (m1 - 1), t2 := BitVec.ofNat 10 (m2 - 1), tcnt := 0,
                     ph := Phase.valid.code, inputs := rest }

/-! ### Phase 4, bit sampling -/

/-- Rule R78: the two bands are strict, and every other width is invalid. -/
def Obligations.ClassifyHasTwoStrictBands : Prop :=
  ∀ w : Ticks,
    (classify w = .bit 0 ↔ 20 < w.toNat ∧ w.toNat < 30) ∧
    (classify w = .bit 1 ↔ 60 < w.toNat ∧ w.toNat < 80) ∧
    (classify w = .invalid ↔ ¬(20 < w.toNat ∧ w.toNat < 30) ∧ ¬(60 < w.toNat ∧ w.toNat < 80))

/-- Rule R79: `BIT_L` waits while the line is Low and discards the elapsed value. -/
def Obligations.BitLWaitsForHigh : Prop :=
  SelectedInPhase .bitL .bitL ∧
  ∀ (start : Bool) (lineIn : Level) (s : State),
    (500 < s.tcnt.toNat → exec (.bitL start lineIn) s =
      .next { s with res := .timeout, done := true, ten := false, mask := false, ph := Phase.idle.code }) ∧
    (s.tcnt.toNat ≤ 500 → lineIn = .high → exec (.bitL start lineIn) s =
      .next { s with done := false, tcnt := 0, ph := Phase.bitH.code }) ∧
    (s.tcnt.toNat ≤ 500 → lineIn = .low → exec (.bitL start lineIn) s =
      .next { s with done := false, tcnt := s.tcnt + 1 })

/-- Rule R80: `BIT_H` waits while the line is High; at its end it classifies the width, stores an accepted bit in
`RAW[BITIDX]` and goes on to the next bit, or to `CHECK` after bit 39; an invalid width stores nothing. -/
def Obligations.BitHClassifiesAndStores : Prop :=
  SelectedInPhase .bitH .bitH ∧
  ∀ (start : Bool) (lineIn : Level) (s : State),
    (500 < s.tcnt.toNat → exec (.bitH start lineIn) s =
      .next { s with res := .timeout, done := true, ten := false, mask := false, ph := Phase.idle.code }) ∧
    (s.tcnt.toNat ≤ 500 → lineIn = .high → exec (.bitH start lineIn) s =
      .next { s with done := false, tcnt := s.tcnt + 1 }) ∧
    (s.tcnt.toNat ≤ 500 → lineIn = .low → classify s.tcnt = .invalid → exec (.bitH start lineIn) s =
      .next { s with res := .invalidBitTiming, done := true, ten := false, mask := false,
                     ph := Phase.idle.code }) ∧
    (∀ b : Bit, s.tcnt.toNat ≤ 500 → lineIn = .low → classify s.tcnt = .bit b → s.bitidx = 39 →
      exec (.bitH start lineIn) s =
        .next { s with done := false, raw := s.raw.write s.bitidx.val b, ten := false, mask := false, tcnt := 0,
                       ph := Phase.check.code }) ∧
    (∀ b : Bit, s.tcnt.toNat ≤ 500 → lineIn = .low → classify s.tcnt = .bit b → s.bitidx.val < 39 →
      exec (.bitH start lineIn) s =
        .next { s with done := false, raw := s.raw.write s.bitidx.val b, bitidx := s.bitidx + 1, tcnt := 0,
                       ph := Phase.bitL.code }) ∧
    (s.raw.write s.bitidx.val 0).read? s.bitidx.val = some 0 ∧
    (s.raw.write s.bitidx.val 1).read? s.bitidx.val = some 1 ∧
    (s.bitidx.val < 39 → (s.bitidx + 1).val = s.bitidx.val + 1)

/-- Rule R82 for one bit, from the first sample of its `BIT_L`: `l` Low samples, `w + 1` High samples and a Low sample
give the bit that `w` classifies as, in `(l + 1) + (w + 1)` edges; an invalid `w` ends the transaction there. -/
def Obligations.BitRunsGiveTheBit : Prop :=
  ∀ (s : State) (l w : Nat) (rest : List InWord), s.ph = Phase.bitL.code → s.tcnt = 0 → l ≤ 500 → w ≤ 500 →
    s.inputs = stimRun .low l ++ stimRun .high (w + 1) ++ stimRun .low 1 ++ rest →
    (∀ b : Bit, classify (BitVec.ofNat 10 w) = .bit b → s.bitidx.val < 39 →
      steps (l + 1 + (w + 1)) s =
        .next { s with done := false, raw := s.raw.write s.bitidx.val b, bitidx := s.bitidx + 1, tcnt := 0,
                       ph := Phase.bitL.code, inputs := rest }) ∧
    (∀ b : Bit, classify (BitVec.ofNat 10 w) = .bit b → s.bitidx = 39 →
      steps (l + 1 + (w + 1)) s =
        .next { s with done := false, raw := s.raw.write s.bitidx.val b, ten := false, mask := false, tcnt := 0,
                       ph := Phase.check.code, inputs := rest }) ∧
    (classify (BitVec.ofNat 10 w) = .invalid →
      steps (l + 1 + (w + 1)) s =
        .next { s with res := .invalidBitTiming, done := true, ten := false, mask := false,
                       tcnt := BitVec.ofNat 10 w, ph := Phase.idle.code, inputs := rest })

/-! ### Phase 5, decode and checksum -/

/-- Rule R83: the first bit to arrive is the most significant. -/
def Obligations.PackPutsTheFirstBitHighest : Prop :=
  ∀ b0 b1 b2 b3 b4 b5 b6 b7 : Bit,
    (pack [b0, b1, b2, b3, b4, b5, b6, b7]).toNat =
      b0.toNat * 128 + b1.toNat * 64 + b2.toNat * 32 + b3.toNat * 16 + b4.toNat * 8 + b5.toNat * 4 +
        b6.toNat * 2 + b7.toNat

/-- Rules R39, R45, R59: a field's byte is the packing of its eight cells in index order, and it has no value as long
as one of them has none. -/
def Obligations.FieldIsThePackingOfItsCells : Prop :=
  ∀ (m : Memory) (base : Nat),
    (∀ b0 b1 b2 b3 b4 b5 b6 b7 : Bit, m.read? base = some b0 → m.read? (base + 1) = some b1 →
      m.read? (base + 2) = some b2 → m.read? (base + 3) = some b3 → m.read? (base + 4) = some b4 →
      m.read? (base + 5) = some b5 → m.read? (base + 6) = some b6 → m.read? (base + 7) = some b7 →
      m.readByte base = some (pack [b0, b1, b2, b3, b4, b5, b6, b7])) ∧
    ((∃ j, j < 8 ∧ m.read? (base + j) = none) → m.readByte base = none)

/-- Rule R84: the checksum is the sum of exactly the humidity and temperature bytes, modulo 256. -/
def Obligations.ChecksumSumsTwoBytes : Prop :=
  ∀ h t p : Byte, (checksumOk h t p = true ↔ (h.toNat + t.toNat) % 256 = p.toNat) ∧
    (checksumOk h t p = true ↔ h + t = p)

/-- Rule R86: `CHECK` packs the cells 0 to 7, 16 to 23 and 32 to 39, publishes both readings exactly when the checksum
holds, and ends the transaction either way. The other cells need hold no value. -/
def Obligations.CheckPublishesOnlyMatchingFrames : Prop :=
  SelectedInPhase .check .check ∧
  ∀ (start : Bool) (lineIn : Level) (s : State) (cell : Nat → Bit),
    (∀ j, (j < 8 ∨ (16 ≤ j ∧ j < 24) ∨ (32 ≤ j ∧ j < 40)) → s.raw.read? j = some (cell j)) →
    let h := pack [cell 0, cell 1, cell 2, cell 3, cell 4, cell 5, cell 6, cell 7]
    let t := pack [cell 16, cell 17, cell 18, cell 19, cell 20, cell 21, cell 22, cell 23]
    let p := pack [cell 32, cell 33, cell 34, cell 35, cell 36, cell 37, cell 38, cell 39]
    ((h.toNat + t.toNat) % 256 = p.toNat → exec (.check start lineIn) s =
      .next { s with hum := h, temp := t, res := .ok, done := true, ten := false, mask := false,
                     ph := Phase.idle.code }) ∧
    ((h.toNat + t.toNat) % 256 ≠ p.toNat → exec (.check start lineIn) s =
      .next { s with res := .checksumMismatch, done := true, ten := false, mask := false,
                     ph := Phase.idle.code })

/-- Rule R40: a read of a cell that holds no value is a fault; `CHECK` faults exactly when one of the 24 cells it reads
holds none, and no other instruction faults. -/
def Obligations.OnlyUnwrittenCellsFault : Prop :=
  (∀ (start : Bool) (lineIn : Level) (s : State),
    exec (.check start lineIn) s = .fault .rawCellUnwritten ↔
      ∃ j, (j < 8 ∨ (16 ≤ j ∧ j < 24) ∨ (32 ≤ j ∧ j < 40)) ∧ s.raw.read? j = none) ∧
  (∀ (i : Instr) (s : State) (r : Fault), exec i s = .fault r → ∃ start lineIn, i = .check start lineIn)

/-- Rules R39, R60: the cells of the two fraction fields take no part in what `CHECK` does. -/
def Obligations.FractionCellsDoNotMatter : Prop :=
  ∀ (start : Bool) (lineIn : Level) (s t : State) (m : Memory),
    (∀ j, (j < 8 ∨ (16 ≤ j ∧ j < 24) ∨ (32 ≤ j ∧ j < 40)) → m.read? j = s.raw.read? j) →
    exec (.check start lineIn) s = .next t →
    exec (.check start lineIn) { s with raw := m } = .next { t with raw := m }

/-! ### Frames -/

/-- What `NOP`, `READ` and `HOLD` leave unchanged. -/
def Obligations.FrameOfTheIdleAndHoldRules : Prop :=
  ∀ (i : Instr) (s t : State), exec i s = .next t →
    (∃ l, i = .nop l) ∨ (∃ l, i = .read l) ∨ (∃ st l, i = .hold st l) →
    t.bitidx = s.bitidx ∧ t.t1 = s.t1 ∧ t.t2 = s.t2 ∧ t.hum = s.hum ∧ t.temp = s.temp ∧ t.res = s.res ∧
    (∀ a, t.raw.read? a = s.raw.read? a) ∧
    ((∃ l, i = .nop l) → t.ph = s.ph ∧ t.hcnt = s.hcnt ∧ t.tcnt = s.tcnt ∧ t.ten = s.ten ∧ t.mask = s.mask ∧
      t.dir = s.dir ∧ t.lout = s.lout) ∧
    ((∃ l, i = .read l) → t.tcnt = s.tcnt ∧ t.ten = s.ten ∧ t.mask = s.mask) ∧
    ((∃ st l, i = .hold st l) → t.lout = s.lout ∧
      (s.hcnt = s.holdTicks.val - 1 → t.hcnt = s.hcnt) ∧
      (s.hcnt ≠ s.holdTicks.val - 1 → t.ph = s.ph ∧ t.tcnt = s.tcnt ∧ t.ten = s.ten ∧ t.mask = s.mask ∧
        t.dir = s.dir))

/-- What the response waits and `VALID` leave unchanged: besides `PH`, `TCNT`, `DONE` and, where they end the
transaction, `RES`, `TEN`, `MASK`, only `ACK_B` writes `T1`, only `ACK_C` writes `T2`, only `VALID` writes
`BITIDX`. -/
def Obligations.FrameOfTheResponseRules : Prop :=
  ∀ (i : Instr) (s t : State), exec i s = .next t →
    (∃ st l, i = .ackA st l) ∨ (∃ st l, i = .ackB st l) ∨ (∃ st l, i = .ackC st l) ∨ (∃ st l, i = .valid st l) →
    t.hcnt = s.hcnt ∧ t.hum = s.hum ∧ t.temp = s.temp ∧ t.dir = s.dir ∧ t.lout = s.lout ∧
    (∀ a, t.raw.read? a = s.raw.read? a) ∧
    ((∀ st l, i ≠ .ackB st l) → t.t1 = s.t1) ∧ ((∀ st l, i ≠ .ackC st l) → t.t2 = s.t2) ∧
    ((∀ st l, i ≠ .valid st l) → t.bitidx = s.bitidx) ∧
    (t.done = false → t.res = s.res ∧ t.ten = s.ten ∧ t.mask = s.mask) ∧
    (t.done = true → t.tcnt = s.tcnt ∧ t.t1 = s.t1 ∧ t.t2 = s.t2 ∧ t.bitidx = s.bitidx)

/-- What `BIT_L` and `BIT_H` leave unchanged. `BIT_H` stores to cell `BITIDX` when it ends in time on a width that
classifies, and then every other cell reads as before; every other form stores nothing. -/
def Obligations.FrameOfTheSamplingRules : Prop :=
  (∀ (start : Bool) (lineIn : Level) (s t : State), exec (.bitL start lineIn) s = .next t →
    t.bitidx = s.bitidx ∧ t.hcnt = s.hcnt ∧ t.t1 = s.t1 ∧ t.t2 = s.t2 ∧ t.hum = s.hum ∧ t.temp = s.temp ∧
    t.dir = s.dir ∧ t.lout = s.lout ∧ (∀ a, t.raw.read? a = s.raw.read? a) ∧
    (t.done = false → t.res = s.res ∧ t.ten = s.ten ∧ t.mask = s.mask)) ∧
  (∀ (start : Bool) (lineIn : Level) (s t : State), exec (.bitH start lineIn) s = .next t →
    t.hcnt = s.hcnt ∧ t.t1 = s.t1 ∧ t.t2 = s.t2 ∧ t.hum = s.hum ∧ t.temp = s.temp ∧ t.dir = s.dir ∧
    t.lout = s.lout ∧ (∀ a, a ≠ s.bitidx.val → t.raw.read? a = s.raw.read? a) ∧
    (lineIn = .high ∨ 500 < s.tcnt.toNat ∨ classify s.tcnt = .invalid →
      t.bitidx = s.bitidx ∧ ∀ a, t.raw.read? a = s.raw.read? a) ∧
    (t.done = false → t.res = s.res) ∧
    (t.ph ≠ Phase.check.code → t.done = false → t.ten = s.ten ∧ t.mask = s.mask))

/-- What `CHECK` leaves unchanged. -/
def Obligations.FrameOfTheChecksumRule : Prop :=
  ∀ (start : Bool) (lineIn : Level) (s t : State), exec (.check start lineIn) s = .next t →
    t.bitidx = s.bitidx ∧ t.hcnt = s.hcnt ∧ t.tcnt = s.tcnt ∧ t.t1 = s.t1 ∧ t.t2 = s.t2 ∧ t.dir = s.dir ∧
    t.lout = s.lout ∧ (∀ a, t.raw.read? a = s.raw.read? a) ∧
    (t.res ≠ .ok → t.hum = s.hum ∧ t.temp = s.temp)

/-- Rule R110 (3) and log entries 1 and 2: no rule writes the parameter `HOLD_TICKS`, and none uses up or invents an
input word: the step alone does. The model's own fields, not the spec's. -/
def Obligations.NoRuleWritesTheParameterOrTheInputs : Prop :=
  (∀ (i : Instr) (s t : State), exec i s = .next t →
    t.holdTicks = s.holdTicks ∧ t.inputs = s.inputs ∧ t.draws = s.draws) ∧
  (∀ s t : State, step s = .next t → t.holdTicks = s.holdTicks ∧ ∀ k, t.inputAt k = s.inputAt (k + 1))

/-! ### The machine as a whole -/

/-- The invariant of rules R32, R35, R40 is kept by every step from every state that meets it. -/
def Obligations.StepKeepsTheInvariant : Prop :=
  ∀ s t : State, s.Inv → step s = .next t → t.Inv

/-- Rule R106: from every state that meets the invariant, whatever the inputs, there is a next state: no fault, no
refusal, no stuck state. -/
def Obligations.EveryInvariantStateHasASuccessor : Prop :=
  ∀ s : State, s.Inv → ∃ t, step s = .next t

/-- Rule R32: the bounds hold in every state reachable from a reset state. -/
def Obligations.ReachableStatesMeetTheBounds : Prop :=
  ∀ s : State, Reachable s →
    s.ph.toNat ≤ 8 ∧ s.bitidx.val ≤ 39 ∧ s.hcnt ≤ s.holdTicks.val - 1 ∧ s.tcnt.toNat ≤ 501 ∧ s.t1.toNat ≤ 500 ∧
    s.t2.toNat ≤ 500 ∧ s.res.code.toNat ≤ 5

/-- Rule R35, items (a) to (f): the flags follow the phase in every reachable state. -/
def Obligations.ReachableFlagsFollowThePhase : Prop :=
  ∀ s : State, Reachable s →
    (s.dir = .output ↔ s.ph = Phase.hold.code) ∧
    (s.ten = true ↔ s.ph = Phase.ackA.code ∨ s.ph = Phase.ackB.code ∨ s.ph = Phase.ackC.code ∨
      s.ph = Phase.valid.code ∨ s.ph = Phase.bitL.code ∨ s.ph = Phase.bitH.code) ∧
    s.mask = s.ten ∧ s.lout = .low ∧ (s.done = true → s.ph = Phase.idle.code) ∧
    (s.ph = Phase.idle.code → s.dir = .input ∧ s.ten = false ∧ s.mask = false)

/-- Rule R40: an edge after which `CHECK` is to fire, from a state that meets the invariant, leaves all 40 cells written;
no reachable state faults or is refused. -/
def Obligations.ReachableRunsNeverStop : Prop :=
  (∀ s t : State, s.Inv → step s = .next t → t.ph = Phase.check.code →
    ∀ j, j < 40 → ∃ b, t.raw.read? j = some b) ∧
  ∀ (s : State) (n : Nat), Reachable s → SafeRun n s

/-- Rules R25, R26, R87 (c): the readings change only at a `CHECK` that succeeds, to the bytes it packed, or at a
reset. -/
def Obligations.ReadingsChangeOnlyOnSuccessOrReset : Prop :=
  ∀ (i : Instr) (s t : State), exec i s = .next t → t.hum ≠ s.hum ∨ t.temp ≠ s.temp →
    (∃ ph st l, i = .reset ph st l) ∨
    ((∃ st l, i = .check st l) ∧ t.res = .ok ∧ t.done = true ∧ s.raw.readByte 0 = some t.hum ∧
      s.raw.readByte 16 = some t.temp ∧ s.raw.readByte 32 = some (t.hum + t.temp))

/-- Rule R92: every completion edge leaves `DONE = 1`, the timer stopped, the mask request dropped and the sequencer in
`IDLE` with a result, and writes nothing else but, on success, the two readings. -/
def Obligations.CompletionWritesExactlyTheFinishRegisters : Prop :=
  (∀ (code : Result) (s : State), s.finish code =
    { s with res := code, done := true, ten := false, mask := false, ph := Phase.idle.code }) ∧
  (∀ (i : Instr) (s t : State), exec i s = .next t → t.done = true →
    t.res ≠ .none ∧ t.ten = false ∧ t.mask = false ∧ t.ph = Phase.idle.code ∧
    t.dir = s.dir ∧ t.lout = s.lout ∧ t.bitidx = s.bitidx ∧ t.hcnt = s.hcnt ∧ t.tcnt = s.tcnt ∧ t.t1 = s.t1 ∧
    t.t2 = s.t2 ∧ t.raw = s.raw ∧ (t.res ≠ .ok → t.hum = s.hum ∧ t.temp = s.temp))

/-- Rule R90, its table: which instruction can end a transaction with which result. -/
def Obligations.PhaseDecidesThePossibleResults : Prop :=
  ∀ (i : Instr) (s t : State), exec i s = .next t → t.done = true →
    (t.res = .timeout ∧ ((∃ st l, i = .ackA st l) ∨ (∃ st l, i = .ackB st l) ∨ (∃ st l, i = .ackC st l) ∨
      (∃ st l, i = .bitL st l) ∨ (∃ st l, i = .bitH st l))) ∨
    (t.res = .invalidHandshake ∧ ∃ st l, i = .valid st l) ∨
    (t.res = .invalidBitTiming ∧ ∃ st l, i = .bitH st l) ∨
    ((t.res = .ok ∨ t.res = .checksumMismatch) ∧ ∃ st l, i = .check st l)

/-- Rules R27, R113: between completion edges and reset edges the result ports are stable. -/
def Obligations.ResultPortsAreStableBetweenCompletions : Prop :=
  ∀ s t : State, step s = .next t → (s.inputAt 0).rst = false → t.done = false →
    t.outputs.res = s.outputs.res ∧ t.outputs.hum = s.outputs.hum ∧ t.outputs.temp = s.outputs.temp

/-- Rule R93: within one edge, reset comes before everything, the timeout test before the line test, and the
classification of `BIT_H` follows from the line test. -/
def Obligations.ResetThenTimeoutThenLine : Prop :=
  (∀ s : State, (s.inputAt 0).rst = true → step s = .next s.consumeInput.resetRegisters) ∧
  (∀ (s : State) (p : Phase) (level : Level), waitLevel p = some level → s.ph = p.code →
    (s.inputAt 0).rst = false → 500 < s.tcnt.toNat →
    step s = .next { s.consumeInput with
      res := .timeout, done := true, ten := false, mask := false, ph := Phase.idle.code }) ∧
  (∀ s : State, s.ph = Phase.bitH.code → (s.inputAt 0).rst = false → (s.inputAt 0).lineIn = .low →
    s.tcnt.toNat ≤ 500 → classify s.tcnt = .invalid →
    step s = .next { s.consumeInput with
      res := .invalidBitTiming, done := true, ten := false, mask := false, ph := Phase.idle.code })

/-- Rules R96, R97: the mask request and the timer rise only at the last hold edge, and fall only at a completion, at
the acceptance of bit 39 or at a reset. -/
def Obligations.MaskAndTimerRiseAtReleaseAndFallOnEveryExit : Prop :=
  (∀ (i : Instr) (s t : State), exec i s = .next t →
    (s.mask = false ∧ t.mask = true) ∨ (s.ten = false ∧ t.ten = true) →
    (∃ st l, i = .hold st l) ∧ s.hcnt = s.holdTicks.val - 1 ∧ t.ph = Phase.ackA.code) ∧
  (∀ (i : Instr) (s t : State), exec i s = .next t →
    (s.mask = true ∧ t.mask = false) ∨ (s.ten = true ∧ t.ten = false) →
    t.done = true ∨ (∃ ph st l, i = .reset ph st l) ∨
    ((∃ st l, i = .bitH st l) ∧ s.bitidx = 39 ∧ t.ph = Phase.check.code)) ∧
  (∀ (i : Instr) (s t : State), exec i s = .next t → t.done = true → t.mask = false ∧ t.ten = false)

/-- Rule R28: `DONE` is 1 for exactly the one tick after a completion edge, and in that tick the engine is not busy and
shows the result. -/
def Obligations.DonePulseLastsOneTick : Prop :=
  (∀ s t : State, s.Inv → s.done = true → step s = .next t → t.done = false) ∧
  (∀ s t : State, step s = .next t → t.done = true → t.outputs.busy = false ∧ t.res ≠ .none) ∧
  (∀ s t : State, step s = .next t → t.done = true → (s.inputAt 0).rst = false)

/-- Rule R30: no rule drives the line High, so `LOUT = 0` in every reachable state. -/
def Obligations.LineIsNeverDrivenHigh : Prop :=
  (∀ (i : Instr) (s t : State), exec i s = .next t → t.lout = .high → s.lout = .high) ∧
  (∀ s : State, Reachable s → s.lout = .low)

/-- Rule R16: the ports are functions of the registers. -/
def Obligations.OutputsAreFunctionsOfRegisters : Prop :=
  ∀ s : State, (s.outputs.lineOe = 1 ↔ s.dir = .output) ∧ (s.outputs.lineOut = 1 ↔ s.lout = .high) ∧
    (s.outputs.busy = true ↔ s.ph ≠ Phase.idle.code) ∧ s.outputs.done = s.done ∧ s.outputs.res = s.res.code ∧
    s.outputs.hum = s.hum ∧ s.outputs.temp = s.temp ∧ s.outputs.maskReq = s.mask ∧ s.outputs.tmrRun = s.ten

/-- Rule R58: the places of the fields in the output word. -/
def Obligations.OutputWordHasTheFieldsInPlace : Prop :=
  ∀ o : Outputs, o.word.extractLsb' 24 1 = o.lineOe ∧ o.word.extractLsb' 23 1 = o.lineOut ∧
    o.word.extractLsb' 22 1 = BitVec.ofBool o.busy ∧ o.word.extractLsb' 21 1 = BitVec.ofBool o.done ∧
    o.word.extractLsb' 18 3 = o.res ∧ o.word.extractLsb' 10 8 = o.hum ∧ o.word.extractLsb' 2 8 = o.temp ∧
    o.word.extractLsb' 1 1 = BitVec.ofBool o.maskReq ∧ o.word.extractLsb' 0 1 = BitVec.ofBool o.tmrRun

/-- Rule R33: the outcome of a transaction does not depend on any hidden state left by an earlier one. Two idle states
that agree on the ports, the parameter and the inputs to come show the same ports after every number of edges. -/
def Obligations.HiddenStateOfIdleDoesNotReachThePorts : Prop :=
  ∀ s u : State, s.Inv → u.Inv → s.ph = Phase.idle.code → u.ph = Phase.idle.code → s.outputs = u.outputs →
    s.holdTicks = u.holdTicks → (∀ k, s.inputAt k = u.inputAt k) →
    ∀ n : Nat, ∃ s' u' : State, steps n s = .next s' ∧ steps n u = .next u' ∧ s'.outputs = u'.outputs

/-- Rules R106, R120: without reset, every transaction ends. From every busy state that meets the invariant the engine
reaches a completion within `HOLD_TICKS + 24364` edges, so a transaction takes at most `HOLD_TICKS + 24365` counting
its `READ` edge. -/
def Obligations.EveryTransactionEndsWithinTheBound : Prop :=
  (∀ s : State, s.Inv → s.ph ≠ Phase.idle.code →
    (∀ k, k < longestRemainder s.holdTicks → (s.inputAt k).rst = false) →
    ∃ n t, 1 ≤ n ∧ n ≤ s.holdTicks.val + 24364 ∧ steps n s = .next t ∧ t.done = true ∧ t.ph = Phase.idle.code) ∧
  (∀ s : State, s.Inv → s.ph = Phase.idle.code → (s.inputAt 0).start = true →
    (∀ k, k < longestRemainder s.holdTicks + 1 → (s.inputAt k).rst = false) →
    ∃ n t, 1 ≤ n ∧ n ≤ s.holdTicks.val + 24365 ∧ steps n s = .next t ∧ t.done = true ∧ t.ph = Phase.idle.code)

/-- Rule R120, lower bound: a transaction takes at least `HOLD_TICKS + 5` edges counting its `READ` edge. -/
def Obligations.NoTransactionIsShorterThanItsHold : Prop :=
  ∀ (s : State) (n : Nat) (t : State), s.ph = Phase.idle.code → (s.inputAt 0).start = true →
    (∀ k, k < n → (s.inputAt k).rst = false) → 1 ≤ n → n < s.holdTicks.val + 5 → steps n s = .next t →
    t.done = false ∧ t.ph ≠ Phase.idle.code

/-- Rules R66, R87 (a), (b): a complete well-formed transaction, for every `HOLD_TICKS`, every acknowledgment within
the bounds and every 40 symbols whose widths classify, ends at its last edge. It publishes the packed humidity and
temperature with `OK` when the checksum holds, and keeps the stored readings with `CHECKSUM_MISMATCH` when it does
not. -/
def Obligations.WholeTransactionPublishesTheFrame : Prop :=
  ∀ (s : State) (a t1 t2 : Nat) (syms : List (Nat × Nat)) (bits : List Bit) (rest : List InWord),
    s.ph = Phase.idle.code → a ≤ 500 → 60 < t1 → t1 < 100 → 60 < t2 → t2 < 100 →
    syms.length = 40 → (∀ lw ∈ syms, lw.1 ≤ 500 ∧ lw.2 ≤ 500) →
    syms.map (fun lw => classify (BitVec.ofNat 10 lw.2)) = bits.map Symbol.bit →
    s.inputs = stimTransaction s.holdTicks a t1 t2 syms ++ rest →
    let h := pack (bits.take 8)
    let tp := pack ((bits.drop 16).take 8)
    let p := pack ((bits.drop 32).take 8)
    ∃ t : State,
      steps (stimTransaction s.holdTicks a t1 t2 syms).length s = .next t ∧
      t.inputs = rest ∧ t.ph = Phase.idle.code ∧ t.done = true ∧ t.ten = false ∧ t.mask = false ∧
      ((h.toNat + tp.toNat) % 256 = p.toNat → t.res = .ok ∧ t.hum = h ∧ t.temp = tp) ∧
      ((h.toNat + tp.toNat) % 256 ≠ p.toNat → t.res = .checksumMismatch ∧ t.hum = s.hum ∧ t.temp = s.temp)
end

