-- ==== Sys2Proof/Laws/Memory.lean ====
section
/-! SUPPORT. The laws of the sample store: a read after a write, and that a write keeps the canonical form. -/

namespace Sys2Proof.Machine

/-- A read after a write to the same cell gives the bit written (rule R38). -/
@[simp] theorem Memory.read_write_same (m : Memory) (i : Nat) (b : Bit) : (m.write i b).read? i = some b := by
  induction m with
  | nil => simp [Memory.write, Memory.read?]
  | cons c m ih =>
    obtain ⟨j, c⟩ := c
    simp only [Memory.write]
    split
    · simp [Memory.read?]
    · split
      · simp [Memory.read?]
      · simp [Memory.read?, *]

/-- A write leaves every other cell alone (rule R38). -/
theorem Memory.read_write_other (m : Memory) {i k : Nat} (b : Bit) (h : k ≠ i) :
    (m.write i b).read? k = m.read? k := by
  induction m with
  | nil => simp [Memory.write, Memory.read?, h]
  | cons c m ih =>
    obtain ⟨j, c⟩ := c
    simp only [Memory.write]
    split
    · simp [Memory.read?, h]
    · split
      · subst_vars; simp [Memory.read?, h]
      · simp [Memory.read?, ih]

/-- One equation for a read after a write. -/
theorem Memory.read_write (m : Memory) (i k : Nat) (b : Bit) :
    (m.write i b).read? k = if k = i then some b else m.read? k := by
  split
  · subst_vars; simp
  · exact Memory.read_write_other m b ‹_›

theorem Memory.wfFrom_write {m : Memory} {lo i : Nat} (b : Bit) (hlo : lo ≤ i) (hi : i < Config.nbits)
    (h : Memory.wfFrom lo m = true) : Memory.wfFrom lo (m.write i b) = true := by
  induction m generalizing lo with
  | nil => simp [Memory.write, Memory.wfFrom, hlo, hi]
  | cons c m ih =>
    obtain ⟨j, c⟩ := c
    simp only [Memory.wfFrom, Bool.and_eq_true, decide_eq_true_eq] at h
    obtain ⟨⟨h1, h2⟩, h3⟩ := h
    simp only [Memory.write]
    split
    · simp [Memory.wfFrom, hlo, hi, h2, h3]; omega
    · split
      · subst_vars; simp [Memory.wfFrom, h1, h2, h3]
      · simp only [Memory.wfFrom, Bool.and_eq_true, decide_eq_true_eq]
        exact ⟨⟨h1, h2⟩, ih (by omega) h3⟩

/-- A write to a cell of the store keeps the canonical form. -/
theorem Memory.wf_write {m : Memory} {i : Nat} (b : Bit) (hi : i < Config.nbits) (h : m.wf = true) :
    (m.write i b).wf = true :=
  Memory.wfFrom_write b (Nat.zero_le i) hi h

/-- A slice read succeeds exactly when each of its cells has been written (rule R39). -/
theorem Memory.readBits_isSome (m : Memory) (i n : Nat) :
    (m.readBits i n).isSome = true ↔ ∀ k, i ≤ k → k < i + n → (m.read? k).isSome = true := by
  induction n generalizing i with
  | zero => simp [Memory.readBits]; omega
  | succ n ih =>
    constructor
    · intro h k hk hk'
      simp only [Memory.readBits] at h
      split at h
      · rename_i b bs hb hbs
        by_cases hki : k = i
        · subst hki; simp [hb]
        · exact (ih (i + 1)).mp (by simp [hbs]) k (by omega) (by omega)
      · simp at h
    · intro h
      have hi := h i (Nat.le_refl i) (by omega)
      have hr := (ih (i + 1)).mpr fun k hk hk' => h k (by omega) (by omega)
      obtain ⟨b, hb⟩ := Option.isSome_iff_exists.mp hi
      obtain ⟨bs, hbs⟩ := Option.isSome_iff_exists.mp hr
      simp [Memory.readBits, hb, hbs]

/-- A byte read succeeds exactly when its eight cells have been written. -/
theorem Memory.readByte_isSome (m : Memory) (base : Nat) :
    (m.readByte base).isSome = true ↔ ∀ k, base ≤ k → k < base + 8 → (m.read? k).isSome = true := by
  simpa [Memory.readByte] using m.readBits_isSome base 8

/-- A slice read depends on its own cells only (rule R39). -/
theorem Memory.readBits_congr {m m' : Memory} {i n : Nat}
    (h : ∀ k, i ≤ k → k < i + n → m.read? k = m'.read? k) : m.readBits i n = m'.readBits i n := by
  induction n generalizing i with
  | zero => rfl
  | succ n ih =>
    simp only [Memory.readBits]
    rw [h i (Nat.le_refl i) (by omega), ih fun k hk hk' => h k (by omega) (by omega)]

/-- A byte read depends on its eight cells only. -/
theorem Memory.readByte_congr {m m' : Memory} {base : Nat}
    (h : ∀ k, base ≤ k → k < base + 8 → m.read? k = m'.read? k) : m.readByte base = m'.readByte base := by
  simp only [Memory.readByte, Memory.readBits_congr h]

end Sys2Proof.Machine
end

