-- ==== Sys2Proof/Laws/State.lean ====
section
/-! SUPPORT. What each register update leaves in each field of the state: one lemma per field per update, so that no
proof unfolds a record update. -/

namespace Sys2Proof.Machine

/-! ### `State.reset` -/

@[simp] theorem State.reset_ph : State.reset.ph = Phase.idle.code := rfl
@[simp] theorem State.reset_bitidx : State.reset.bitidx = 0 := rfl
@[simp] theorem State.reset_hcnt : State.reset.hcnt = 0 := rfl
@[simp] theorem State.reset_tcnt : State.reset.tcnt = 0 := rfl
@[simp] theorem State.reset_ten : State.reset.ten = false := rfl
@[simp] theorem State.reset_t1 : State.reset.t1 = 0 := rfl
@[simp] theorem State.reset_t2 : State.reset.t2 = 0 := rfl
@[simp] theorem State.reset_hum : State.reset.hum = 0 := rfl
@[simp] theorem State.reset_temp : State.reset.temp = 0 := rfl
@[simp] theorem State.reset_res : State.reset.res = .none := rfl
@[simp] theorem State.reset_done : State.reset.done = false := rfl
@[simp] theorem State.reset_dir : State.reset.dir = .input := rfl
@[simp] theorem State.reset_lout : State.reset.lout = .low := rfl
@[simp] theorem State.reset_mask : State.reset.mask = false := rfl
@[simp] theorem State.reset_raw : State.reset.raw = [] := rfl
@[simp] theorem State.reset_holdTicks : State.reset.holdTicks = Config.defaultHoldTicks := rfl
@[simp] theorem State.reset_inputs : State.reset.inputs = [] := rfl
@[simp] theorem State.reset_draws : State.reset.draws = 0 := rfl

/-! ### `State.goto` -/

@[simp] theorem State.goto_ph (p : Phase) (s : State) : (State.goto p s).ph = p.code := rfl
@[simp] theorem State.goto_bitidx (p : Phase) (s : State) : (State.goto p s).bitidx = s.bitidx := rfl
@[simp] theorem State.goto_hcnt (p : Phase) (s : State) : (State.goto p s).hcnt = s.hcnt := rfl
@[simp] theorem State.goto_tcnt (p : Phase) (s : State) : (State.goto p s).tcnt = s.tcnt := rfl
@[simp] theorem State.goto_ten (p : Phase) (s : State) : (State.goto p s).ten = s.ten := rfl
@[simp] theorem State.goto_t1 (p : Phase) (s : State) : (State.goto p s).t1 = s.t1 := rfl
@[simp] theorem State.goto_t2 (p : Phase) (s : State) : (State.goto p s).t2 = s.t2 := rfl
@[simp] theorem State.goto_raw (p : Phase) (s : State) : (State.goto p s).raw = s.raw := rfl
@[simp] theorem State.goto_hum (p : Phase) (s : State) : (State.goto p s).hum = s.hum := rfl
@[simp] theorem State.goto_temp (p : Phase) (s : State) : (State.goto p s).temp = s.temp := rfl
@[simp] theorem State.goto_res (p : Phase) (s : State) : (State.goto p s).res = s.res := rfl
@[simp] theorem State.goto_done (p : Phase) (s : State) : (State.goto p s).done = s.done := rfl
@[simp] theorem State.goto_dir (p : Phase) (s : State) : (State.goto p s).dir = s.dir := rfl
@[simp] theorem State.goto_lout (p : Phase) (s : State) : (State.goto p s).lout = s.lout := rfl
@[simp] theorem State.goto_mask (p : Phase) (s : State) : (State.goto p s).mask = s.mask := rfl
@[simp] theorem State.goto_holdTicks (p : Phase) (s : State) : (State.goto p s).holdTicks = s.holdTicks := rfl
@[simp] theorem State.goto_inputs (p : Phase) (s : State) : (State.goto p s).inputs = s.inputs := rfl
@[simp] theorem State.goto_draws (p : Phase) (s : State) : (State.goto p s).draws = s.draws := rfl

/-! ### `State.clearDone` -/

@[simp] theorem State.clearDone_ph (s : State) : s.clearDone.ph = s.ph := rfl
@[simp] theorem State.clearDone_bitidx (s : State) : s.clearDone.bitidx = s.bitidx := rfl
@[simp] theorem State.clearDone_hcnt (s : State) : s.clearDone.hcnt = s.hcnt := rfl
@[simp] theorem State.clearDone_tcnt (s : State) : s.clearDone.tcnt = s.tcnt := rfl
@[simp] theorem State.clearDone_ten (s : State) : s.clearDone.ten = s.ten := rfl
@[simp] theorem State.clearDone_t1 (s : State) : s.clearDone.t1 = s.t1 := rfl
@[simp] theorem State.clearDone_t2 (s : State) : s.clearDone.t2 = s.t2 := rfl
@[simp] theorem State.clearDone_raw (s : State) : s.clearDone.raw = s.raw := rfl
@[simp] theorem State.clearDone_hum (s : State) : s.clearDone.hum = s.hum := rfl
@[simp] theorem State.clearDone_temp (s : State) : s.clearDone.temp = s.temp := rfl
@[simp] theorem State.clearDone_res (s : State) : s.clearDone.res = s.res := rfl
@[simp] theorem State.clearDone_done (s : State) : s.clearDone.done = false := rfl
@[simp] theorem State.clearDone_dir (s : State) : s.clearDone.dir = s.dir := rfl
@[simp] theorem State.clearDone_lout (s : State) : s.clearDone.lout = s.lout := rfl
@[simp] theorem State.clearDone_mask (s : State) : s.clearDone.mask = s.mask := rfl
@[simp] theorem State.clearDone_holdTicks (s : State) : s.clearDone.holdTicks = s.holdTicks := rfl
@[simp] theorem State.clearDone_inputs (s : State) : s.clearDone.inputs = s.inputs := rfl
@[simp] theorem State.clearDone_draws (s : State) : s.clearDone.draws = s.draws := rfl

/-! ### `State.restartTimer` -/

@[simp] theorem State.restartTimer_ph (s : State) : s.restartTimer.ph = s.ph := rfl
@[simp] theorem State.restartTimer_bitidx (s : State) : s.restartTimer.bitidx = s.bitidx := rfl
@[simp] theorem State.restartTimer_hcnt (s : State) : s.restartTimer.hcnt = s.hcnt := rfl
@[simp] theorem State.restartTimer_tcnt (s : State) : s.restartTimer.tcnt = 0 := rfl
@[simp] theorem State.restartTimer_ten (s : State) : s.restartTimer.ten = s.ten := rfl
@[simp] theorem State.restartTimer_t1 (s : State) : s.restartTimer.t1 = s.t1 := rfl
@[simp] theorem State.restartTimer_t2 (s : State) : s.restartTimer.t2 = s.t2 := rfl
@[simp] theorem State.restartTimer_raw (s : State) : s.restartTimer.raw = s.raw := rfl
@[simp] theorem State.restartTimer_hum (s : State) : s.restartTimer.hum = s.hum := rfl
@[simp] theorem State.restartTimer_temp (s : State) : s.restartTimer.temp = s.temp := rfl
@[simp] theorem State.restartTimer_res (s : State) : s.restartTimer.res = s.res := rfl
@[simp] theorem State.restartTimer_done (s : State) : s.restartTimer.done = s.done := rfl
@[simp] theorem State.restartTimer_dir (s : State) : s.restartTimer.dir = s.dir := rfl
@[simp] theorem State.restartTimer_lout (s : State) : s.restartTimer.lout = s.lout := rfl
@[simp] theorem State.restartTimer_mask (s : State) : s.restartTimer.mask = s.mask := rfl
@[simp] theorem State.restartTimer_holdTicks (s : State) : s.restartTimer.holdTicks = s.holdTicks := rfl
@[simp] theorem State.restartTimer_inputs (s : State) : s.restartTimer.inputs = s.inputs := rfl
@[simp] theorem State.restartTimer_draws (s : State) : s.restartTimer.draws = s.draws := rfl

/-! ### `State.countTick` -/

@[simp] theorem State.countTick_ph (s : State) : s.countTick.ph = s.ph := rfl
@[simp] theorem State.countTick_bitidx (s : State) : s.countTick.bitidx = s.bitidx := rfl
@[simp] theorem State.countTick_hcnt (s : State) : s.countTick.hcnt = s.hcnt := rfl
@[simp] theorem State.countTick_tcnt (s : State) : s.countTick.tcnt = s.tcnt + 1 := rfl
@[simp] theorem State.countTick_ten (s : State) : s.countTick.ten = s.ten := rfl
@[simp] theorem State.countTick_t1 (s : State) : s.countTick.t1 = s.t1 := rfl
@[simp] theorem State.countTick_t2 (s : State) : s.countTick.t2 = s.t2 := rfl
@[simp] theorem State.countTick_raw (s : State) : s.countTick.raw = s.raw := rfl
@[simp] theorem State.countTick_hum (s : State) : s.countTick.hum = s.hum := rfl
@[simp] theorem State.countTick_temp (s : State) : s.countTick.temp = s.temp := rfl
@[simp] theorem State.countTick_res (s : State) : s.countTick.res = s.res := rfl
@[simp] theorem State.countTick_done (s : State) : s.countTick.done = s.done := rfl
@[simp] theorem State.countTick_dir (s : State) : s.countTick.dir = s.dir := rfl
@[simp] theorem State.countTick_lout (s : State) : s.countTick.lout = s.lout := rfl
@[simp] theorem State.countTick_mask (s : State) : s.countTick.mask = s.mask := rfl
@[simp] theorem State.countTick_holdTicks (s : State) : s.countTick.holdTicks = s.holdTicks := rfl
@[simp] theorem State.countTick_inputs (s : State) : s.countTick.inputs = s.inputs := rfl
@[simp] theorem State.countTick_draws (s : State) : s.countTick.draws = s.draws := rfl

/-! ### `State.setHcnt` -/

@[simp] theorem State.setHcnt_ph (n : Nat) (s : State) : (State.setHcnt n s).ph = s.ph := rfl
@[simp] theorem State.setHcnt_bitidx (n : Nat) (s : State) : (State.setHcnt n s).bitidx = s.bitidx := rfl
@[simp] theorem State.setHcnt_hcnt (n : Nat) (s : State) : (State.setHcnt n s).hcnt = n := rfl
@[simp] theorem State.setHcnt_tcnt (n : Nat) (s : State) : (State.setHcnt n s).tcnt = s.tcnt := rfl
@[simp] theorem State.setHcnt_ten (n : Nat) (s : State) : (State.setHcnt n s).ten = s.ten := rfl
@[simp] theorem State.setHcnt_t1 (n : Nat) (s : State) : (State.setHcnt n s).t1 = s.t1 := rfl
@[simp] theorem State.setHcnt_t2 (n : Nat) (s : State) : (State.setHcnt n s).t2 = s.t2 := rfl
@[simp] theorem State.setHcnt_raw (n : Nat) (s : State) : (State.setHcnt n s).raw = s.raw := rfl
@[simp] theorem State.setHcnt_hum (n : Nat) (s : State) : (State.setHcnt n s).hum = s.hum := rfl
@[simp] theorem State.setHcnt_temp (n : Nat) (s : State) : (State.setHcnt n s).temp = s.temp := rfl
@[simp] theorem State.setHcnt_res (n : Nat) (s : State) : (State.setHcnt n s).res = s.res := rfl
@[simp] theorem State.setHcnt_done (n : Nat) (s : State) : (State.setHcnt n s).done = s.done := rfl
@[simp] theorem State.setHcnt_dir (n : Nat) (s : State) : (State.setHcnt n s).dir = s.dir := rfl
@[simp] theorem State.setHcnt_lout (n : Nat) (s : State) : (State.setHcnt n s).lout = s.lout := rfl
@[simp] theorem State.setHcnt_mask (n : Nat) (s : State) : (State.setHcnt n s).mask = s.mask := rfl
@[simp] theorem State.setHcnt_holdTicks (n : Nat) (s : State) : (State.setHcnt n s).holdTicks = s.holdTicks := rfl
@[simp] theorem State.setHcnt_inputs (n : Nat) (s : State) : (State.setHcnt n s).inputs = s.inputs := rfl
@[simp] theorem State.setHcnt_draws (n : Nat) (s : State) : (State.setHcnt n s).draws = s.draws := rfl

/-! ### `State.setT1` -/

@[simp] theorem State.setT1_ph (v : Ticks) (s : State) : (State.setT1 v s).ph = s.ph := rfl
@[simp] theorem State.setT1_bitidx (v : Ticks) (s : State) : (State.setT1 v s).bitidx = s.bitidx := rfl
@[simp] theorem State.setT1_hcnt (v : Ticks) (s : State) : (State.setT1 v s).hcnt = s.hcnt := rfl
@[simp] theorem State.setT1_tcnt (v : Ticks) (s : State) : (State.setT1 v s).tcnt = s.tcnt := rfl
@[simp] theorem State.setT1_ten (v : Ticks) (s : State) : (State.setT1 v s).ten = s.ten := rfl
@[simp] theorem State.setT1_t1 (v : Ticks) (s : State) : (State.setT1 v s).t1 = v := rfl
@[simp] theorem State.setT1_t2 (v : Ticks) (s : State) : (State.setT1 v s).t2 = s.t2 := rfl
@[simp] theorem State.setT1_raw (v : Ticks) (s : State) : (State.setT1 v s).raw = s.raw := rfl
@[simp] theorem State.setT1_hum (v : Ticks) (s : State) : (State.setT1 v s).hum = s.hum := rfl
@[simp] theorem State.setT1_temp (v : Ticks) (s : State) : (State.setT1 v s).temp = s.temp := rfl
@[simp] theorem State.setT1_res (v : Ticks) (s : State) : (State.setT1 v s).res = s.res := rfl
@[simp] theorem State.setT1_done (v : Ticks) (s : State) : (State.setT1 v s).done = s.done := rfl
@[simp] theorem State.setT1_dir (v : Ticks) (s : State) : (State.setT1 v s).dir = s.dir := rfl
@[simp] theorem State.setT1_lout (v : Ticks) (s : State) : (State.setT1 v s).lout = s.lout := rfl
@[simp] theorem State.setT1_mask (v : Ticks) (s : State) : (State.setT1 v s).mask = s.mask := rfl
@[simp] theorem State.setT1_holdTicks (v : Ticks) (s : State) : (State.setT1 v s).holdTicks = s.holdTicks := rfl
@[simp] theorem State.setT1_inputs (v : Ticks) (s : State) : (State.setT1 v s).inputs = s.inputs := rfl
@[simp] theorem State.setT1_draws (v : Ticks) (s : State) : (State.setT1 v s).draws = s.draws := rfl

/-! ### `State.setT2` -/

@[simp] theorem State.setT2_ph (v : Ticks) (s : State) : (State.setT2 v s).ph = s.ph := rfl
@[simp] theorem State.setT2_bitidx (v : Ticks) (s : State) : (State.setT2 v s).bitidx = s.bitidx := rfl
@[simp] theorem State.setT2_hcnt (v : Ticks) (s : State) : (State.setT2 v s).hcnt = s.hcnt := rfl
@[simp] theorem State.setT2_tcnt (v : Ticks) (s : State) : (State.setT2 v s).tcnt = s.tcnt := rfl
@[simp] theorem State.setT2_ten (v : Ticks) (s : State) : (State.setT2 v s).ten = s.ten := rfl
@[simp] theorem State.setT2_t1 (v : Ticks) (s : State) : (State.setT2 v s).t1 = s.t1 := rfl
@[simp] theorem State.setT2_t2 (v : Ticks) (s : State) : (State.setT2 v s).t2 = v := rfl
@[simp] theorem State.setT2_raw (v : Ticks) (s : State) : (State.setT2 v s).raw = s.raw := rfl
@[simp] theorem State.setT2_hum (v : Ticks) (s : State) : (State.setT2 v s).hum = s.hum := rfl
@[simp] theorem State.setT2_temp (v : Ticks) (s : State) : (State.setT2 v s).temp = s.temp := rfl
@[simp] theorem State.setT2_res (v : Ticks) (s : State) : (State.setT2 v s).res = s.res := rfl
@[simp] theorem State.setT2_done (v : Ticks) (s : State) : (State.setT2 v s).done = s.done := rfl
@[simp] theorem State.setT2_dir (v : Ticks) (s : State) : (State.setT2 v s).dir = s.dir := rfl
@[simp] theorem State.setT2_lout (v : Ticks) (s : State) : (State.setT2 v s).lout = s.lout := rfl
@[simp] theorem State.setT2_mask (v : Ticks) (s : State) : (State.setT2 v s).mask = s.mask := rfl
@[simp] theorem State.setT2_holdTicks (v : Ticks) (s : State) : (State.setT2 v s).holdTicks = s.holdTicks := rfl
@[simp] theorem State.setT2_inputs (v : Ticks) (s : State) : (State.setT2 v s).inputs = s.inputs := rfl
@[simp] theorem State.setT2_draws (v : Ticks) (s : State) : (State.setT2 v s).draws = s.draws := rfl

/-! ### `State.setBitidx` -/

@[simp] theorem State.setBitidx_ph (i : Fin 40) (s : State) : (State.setBitidx i s).ph = s.ph := rfl
@[simp] theorem State.setBitidx_bitidx (i : Fin 40) (s : State) : (State.setBitidx i s).bitidx = i := rfl
@[simp] theorem State.setBitidx_hcnt (i : Fin 40) (s : State) : (State.setBitidx i s).hcnt = s.hcnt := rfl
@[simp] theorem State.setBitidx_tcnt (i : Fin 40) (s : State) : (State.setBitidx i s).tcnt = s.tcnt := rfl
@[simp] theorem State.setBitidx_ten (i : Fin 40) (s : State) : (State.setBitidx i s).ten = s.ten := rfl
@[simp] theorem State.setBitidx_t1 (i : Fin 40) (s : State) : (State.setBitidx i s).t1 = s.t1 := rfl
@[simp] theorem State.setBitidx_t2 (i : Fin 40) (s : State) : (State.setBitidx i s).t2 = s.t2 := rfl
@[simp] theorem State.setBitidx_raw (i : Fin 40) (s : State) : (State.setBitidx i s).raw = s.raw := rfl
@[simp] theorem State.setBitidx_hum (i : Fin 40) (s : State) : (State.setBitidx i s).hum = s.hum := rfl
@[simp] theorem State.setBitidx_temp (i : Fin 40) (s : State) : (State.setBitidx i s).temp = s.temp := rfl
@[simp] theorem State.setBitidx_res (i : Fin 40) (s : State) : (State.setBitidx i s).res = s.res := rfl
@[simp] theorem State.setBitidx_done (i : Fin 40) (s : State) : (State.setBitidx i s).done = s.done := rfl
@[simp] theorem State.setBitidx_dir (i : Fin 40) (s : State) : (State.setBitidx i s).dir = s.dir := rfl
@[simp] theorem State.setBitidx_lout (i : Fin 40) (s : State) : (State.setBitidx i s).lout = s.lout := rfl
@[simp] theorem State.setBitidx_mask (i : Fin 40) (s : State) : (State.setBitidx i s).mask = s.mask := rfl
@[simp] theorem State.setBitidx_holdTicks (i : Fin 40) (s : State) : (State.setBitidx i s).holdTicks = s.holdTicks := rfl
@[simp] theorem State.setBitidx_inputs (i : Fin 40) (s : State) : (State.setBitidx i s).inputs = s.inputs := rfl
@[simp] theorem State.setBitidx_draws (i : Fin 40) (s : State) : (State.setBitidx i s).draws = s.draws := rfl

/-! ### `State.storeBit` -/

@[simp] theorem State.storeBit_ph (b : Bit) (s : State) : (State.storeBit b s).ph = s.ph := rfl
@[simp] theorem State.storeBit_bitidx (b : Bit) (s : State) : (State.storeBit b s).bitidx = s.bitidx := rfl
@[simp] theorem State.storeBit_hcnt (b : Bit) (s : State) : (State.storeBit b s).hcnt = s.hcnt := rfl
@[simp] theorem State.storeBit_tcnt (b : Bit) (s : State) : (State.storeBit b s).tcnt = s.tcnt := rfl
@[simp] theorem State.storeBit_ten (b : Bit) (s : State) : (State.storeBit b s).ten = s.ten := rfl
@[simp] theorem State.storeBit_t1 (b : Bit) (s : State) : (State.storeBit b s).t1 = s.t1 := rfl
@[simp] theorem State.storeBit_t2 (b : Bit) (s : State) : (State.storeBit b s).t2 = s.t2 := rfl
@[simp] theorem State.storeBit_raw (b : Bit) (s : State) : (State.storeBit b s).raw = s.raw.write s.bitidx b := rfl
@[simp] theorem State.storeBit_hum (b : Bit) (s : State) : (State.storeBit b s).hum = s.hum := rfl
@[simp] theorem State.storeBit_temp (b : Bit) (s : State) : (State.storeBit b s).temp = s.temp := rfl
@[simp] theorem State.storeBit_res (b : Bit) (s : State) : (State.storeBit b s).res = s.res := rfl
@[simp] theorem State.storeBit_done (b : Bit) (s : State) : (State.storeBit b s).done = s.done := rfl
@[simp] theorem State.storeBit_dir (b : Bit) (s : State) : (State.storeBit b s).dir = s.dir := rfl
@[simp] theorem State.storeBit_lout (b : Bit) (s : State) : (State.storeBit b s).lout = s.lout := rfl
@[simp] theorem State.storeBit_mask (b : Bit) (s : State) : (State.storeBit b s).mask = s.mask := rfl
@[simp] theorem State.storeBit_holdTicks (b : Bit) (s : State) : (State.storeBit b s).holdTicks = s.holdTicks := rfl
@[simp] theorem State.storeBit_inputs (b : Bit) (s : State) : (State.storeBit b s).inputs = s.inputs := rfl
@[simp] theorem State.storeBit_draws (b : Bit) (s : State) : (State.storeBit b s).draws = s.draws := rfl

/-! ### `State.driveLow` -/

@[simp] theorem State.driveLow_ph (s : State) : s.driveLow.ph = s.ph := rfl
@[simp] theorem State.driveLow_bitidx (s : State) : s.driveLow.bitidx = s.bitidx := rfl
@[simp] theorem State.driveLow_hcnt (s : State) : s.driveLow.hcnt = s.hcnt := rfl
@[simp] theorem State.driveLow_tcnt (s : State) : s.driveLow.tcnt = s.tcnt := rfl
@[simp] theorem State.driveLow_ten (s : State) : s.driveLow.ten = s.ten := rfl
@[simp] theorem State.driveLow_t1 (s : State) : s.driveLow.t1 = s.t1 := rfl
@[simp] theorem State.driveLow_t2 (s : State) : s.driveLow.t2 = s.t2 := rfl
@[simp] theorem State.driveLow_raw (s : State) : s.driveLow.raw = s.raw := rfl
@[simp] theorem State.driveLow_hum (s : State) : s.driveLow.hum = s.hum := rfl
@[simp] theorem State.driveLow_temp (s : State) : s.driveLow.temp = s.temp := rfl
@[simp] theorem State.driveLow_res (s : State) : s.driveLow.res = s.res := rfl
@[simp] theorem State.driveLow_done (s : State) : s.driveLow.done = s.done := rfl
@[simp] theorem State.driveLow_dir (s : State) : s.driveLow.dir = .output := rfl
@[simp] theorem State.driveLow_lout (s : State) : s.driveLow.lout = .low := rfl
@[simp] theorem State.driveLow_mask (s : State) : s.driveLow.mask = s.mask := rfl
@[simp] theorem State.driveLow_holdTicks (s : State) : s.driveLow.holdTicks = s.holdTicks := rfl
@[simp] theorem State.driveLow_inputs (s : State) : s.driveLow.inputs = s.inputs := rfl
@[simp] theorem State.driveLow_draws (s : State) : s.driveLow.draws = s.draws := rfl

/-! ### `State.releaseLine` -/

@[simp] theorem State.releaseLine_ph (s : State) : s.releaseLine.ph = s.ph := rfl
@[simp] theorem State.releaseLine_bitidx (s : State) : s.releaseLine.bitidx = s.bitidx := rfl
@[simp] theorem State.releaseLine_hcnt (s : State) : s.releaseLine.hcnt = s.hcnt := rfl
@[simp] theorem State.releaseLine_tcnt (s : State) : s.releaseLine.tcnt = s.tcnt := rfl
@[simp] theorem State.releaseLine_ten (s : State) : s.releaseLine.ten = true := rfl
@[simp] theorem State.releaseLine_t1 (s : State) : s.releaseLine.t1 = s.t1 := rfl
@[simp] theorem State.releaseLine_t2 (s : State) : s.releaseLine.t2 = s.t2 := rfl
@[simp] theorem State.releaseLine_raw (s : State) : s.releaseLine.raw = s.raw := rfl
@[simp] theorem State.releaseLine_hum (s : State) : s.releaseLine.hum = s.hum := rfl
@[simp] theorem State.releaseLine_temp (s : State) : s.releaseLine.temp = s.temp := rfl
@[simp] theorem State.releaseLine_res (s : State) : s.releaseLine.res = s.res := rfl
@[simp] theorem State.releaseLine_done (s : State) : s.releaseLine.done = s.done := rfl
@[simp] theorem State.releaseLine_dir (s : State) : s.releaseLine.dir = .input := rfl
@[simp] theorem State.releaseLine_lout (s : State) : s.releaseLine.lout = s.lout := rfl
@[simp] theorem State.releaseLine_mask (s : State) : s.releaseLine.mask = true := rfl
@[simp] theorem State.releaseLine_holdTicks (s : State) : s.releaseLine.holdTicks = s.holdTicks := rfl
@[simp] theorem State.releaseLine_inputs (s : State) : s.releaseLine.inputs = s.inputs := rfl
@[simp] theorem State.releaseLine_draws (s : State) : s.releaseLine.draws = s.draws := rfl

/-! ### `State.endSampling` -/

@[simp] theorem State.endSampling_ph (s : State) : s.endSampling.ph = s.ph := rfl
@[simp] theorem State.endSampling_bitidx (s : State) : s.endSampling.bitidx = s.bitidx := rfl
@[simp] theorem State.endSampling_hcnt (s : State) : s.endSampling.hcnt = s.hcnt := rfl
@[simp] theorem State.endSampling_tcnt (s : State) : s.endSampling.tcnt = s.tcnt := rfl
@[simp] theorem State.endSampling_ten (s : State) : s.endSampling.ten = false := rfl
@[simp] theorem State.endSampling_t1 (s : State) : s.endSampling.t1 = s.t1 := rfl
@[simp] theorem State.endSampling_t2 (s : State) : s.endSampling.t2 = s.t2 := rfl
@[simp] theorem State.endSampling_raw (s : State) : s.endSampling.raw = s.raw := rfl
@[simp] theorem State.endSampling_hum (s : State) : s.endSampling.hum = s.hum := rfl
@[simp] theorem State.endSampling_temp (s : State) : s.endSampling.temp = s.temp := rfl
@[simp] theorem State.endSampling_res (s : State) : s.endSampling.res = s.res := rfl
@[simp] theorem State.endSampling_done (s : State) : s.endSampling.done = s.done := rfl
@[simp] theorem State.endSampling_dir (s : State) : s.endSampling.dir = s.dir := rfl
@[simp] theorem State.endSampling_lout (s : State) : s.endSampling.lout = s.lout := rfl
@[simp] theorem State.endSampling_mask (s : State) : s.endSampling.mask = false := rfl
@[simp] theorem State.endSampling_holdTicks (s : State) : s.endSampling.holdTicks = s.holdTicks := rfl
@[simp] theorem State.endSampling_inputs (s : State) : s.endSampling.inputs = s.inputs := rfl
@[simp] theorem State.endSampling_draws (s : State) : s.endSampling.draws = s.draws := rfl

/-! ### `State.publish` -/

@[simp] theorem State.publish_ph (h t : Byte) (s : State) : (State.publish h t s).ph = s.ph := rfl
@[simp] theorem State.publish_bitidx (h t : Byte) (s : State) : (State.publish h t s).bitidx = s.bitidx := rfl
@[simp] theorem State.publish_hcnt (h t : Byte) (s : State) : (State.publish h t s).hcnt = s.hcnt := rfl
@[simp] theorem State.publish_tcnt (h t : Byte) (s : State) : (State.publish h t s).tcnt = s.tcnt := rfl
@[simp] theorem State.publish_ten (h t : Byte) (s : State) : (State.publish h t s).ten = s.ten := rfl
@[simp] theorem State.publish_t1 (h t : Byte) (s : State) : (State.publish h t s).t1 = s.t1 := rfl
@[simp] theorem State.publish_t2 (h t : Byte) (s : State) : (State.publish h t s).t2 = s.t2 := rfl
@[simp] theorem State.publish_raw (h t : Byte) (s : State) : (State.publish h t s).raw = s.raw := rfl
@[simp] theorem State.publish_hum (h t : Byte) (s : State) : (State.publish h t s).hum = h := rfl
@[simp] theorem State.publish_temp (h t : Byte) (s : State) : (State.publish h t s).temp = t := rfl
@[simp] theorem State.publish_res (h t : Byte) (s : State) : (State.publish h t s).res = s.res := rfl
@[simp] theorem State.publish_done (h t : Byte) (s : State) : (State.publish h t s).done = s.done := rfl
@[simp] theorem State.publish_dir (h t : Byte) (s : State) : (State.publish h t s).dir = s.dir := rfl
@[simp] theorem State.publish_lout (h t : Byte) (s : State) : (State.publish h t s).lout = s.lout := rfl
@[simp] theorem State.publish_mask (h t : Byte) (s : State) : (State.publish h t s).mask = s.mask := rfl
@[simp] theorem State.publish_holdTicks (h t : Byte) (s : State) : (State.publish h t s).holdTicks = s.holdTicks := rfl
@[simp] theorem State.publish_inputs (h t : Byte) (s : State) : (State.publish h t s).inputs = s.inputs := rfl
@[simp] theorem State.publish_draws (h t : Byte) (s : State) : (State.publish h t s).draws = s.draws := rfl

/-! ### `State.finish` -/

@[simp] theorem State.finish_ph (c : Result) (s : State) : (State.finish c s).ph = Phase.idle.code := rfl
@[simp] theorem State.finish_bitidx (c : Result) (s : State) : (State.finish c s).bitidx = s.bitidx := rfl
@[simp] theorem State.finish_hcnt (c : Result) (s : State) : (State.finish c s).hcnt = s.hcnt := rfl
@[simp] theorem State.finish_tcnt (c : Result) (s : State) : (State.finish c s).tcnt = s.tcnt := rfl
@[simp] theorem State.finish_ten (c : Result) (s : State) : (State.finish c s).ten = false := rfl
@[simp] theorem State.finish_t1 (c : Result) (s : State) : (State.finish c s).t1 = s.t1 := rfl
@[simp] theorem State.finish_t2 (c : Result) (s : State) : (State.finish c s).t2 = s.t2 := rfl
@[simp] theorem State.finish_raw (c : Result) (s : State) : (State.finish c s).raw = s.raw := rfl
@[simp] theorem State.finish_hum (c : Result) (s : State) : (State.finish c s).hum = s.hum := rfl
@[simp] theorem State.finish_temp (c : Result) (s : State) : (State.finish c s).temp = s.temp := rfl
@[simp] theorem State.finish_res (c : Result) (s : State) : (State.finish c s).res = c := rfl
@[simp] theorem State.finish_done (c : Result) (s : State) : (State.finish c s).done = true := rfl
@[simp] theorem State.finish_dir (c : Result) (s : State) : (State.finish c s).dir = s.dir := rfl
@[simp] theorem State.finish_lout (c : Result) (s : State) : (State.finish c s).lout = s.lout := rfl
@[simp] theorem State.finish_mask (c : Result) (s : State) : (State.finish c s).mask = false := rfl
@[simp] theorem State.finish_holdTicks (c : Result) (s : State) : (State.finish c s).holdTicks = s.holdTicks := rfl
@[simp] theorem State.finish_inputs (c : Result) (s : State) : (State.finish c s).inputs = s.inputs := rfl
@[simp] theorem State.finish_draws (c : Result) (s : State) : (State.finish c s).draws = s.draws := rfl

/-! ### `State.abort` -/

@[simp] theorem State.abort_ph (c : Result) (s : State) : (State.abort c s).ph = Phase.idle.code := rfl
@[simp] theorem State.abort_bitidx (c : Result) (s : State) : (State.abort c s).bitidx = s.bitidx := rfl
@[simp] theorem State.abort_hcnt (c : Result) (s : State) : (State.abort c s).hcnt = s.hcnt := rfl
@[simp] theorem State.abort_tcnt (c : Result) (s : State) : (State.abort c s).tcnt = s.tcnt := rfl
@[simp] theorem State.abort_ten (c : Result) (s : State) : (State.abort c s).ten = false := rfl
@[simp] theorem State.abort_t1 (c : Result) (s : State) : (State.abort c s).t1 = s.t1 := rfl
@[simp] theorem State.abort_t2 (c : Result) (s : State) : (State.abort c s).t2 = s.t2 := rfl
@[simp] theorem State.abort_raw (c : Result) (s : State) : (State.abort c s).raw = s.raw := rfl
@[simp] theorem State.abort_hum (c : Result) (s : State) : (State.abort c s).hum = s.hum := rfl
@[simp] theorem State.abort_temp (c : Result) (s : State) : (State.abort c s).temp = s.temp := rfl
@[simp] theorem State.abort_res (c : Result) (s : State) : (State.abort c s).res = c := rfl
@[simp] theorem State.abort_done (c : Result) (s : State) : (State.abort c s).done = true := rfl
@[simp] theorem State.abort_dir (c : Result) (s : State) : (State.abort c s).dir = s.dir := rfl
@[simp] theorem State.abort_lout (c : Result) (s : State) : (State.abort c s).lout = s.lout := rfl
@[simp] theorem State.abort_mask (c : Result) (s : State) : (State.abort c s).mask = false := rfl
@[simp] theorem State.abort_holdTicks (c : Result) (s : State) : (State.abort c s).holdTicks = s.holdTicks := rfl
@[simp] theorem State.abort_inputs (c : Result) (s : State) : (State.abort c s).inputs = s.inputs := rfl
@[simp] theorem State.abort_draws (c : Result) (s : State) : (State.abort c s).draws = s.draws := rfl

/-! ### `State.placeSelector` -/

@[simp] theorem State.placeSelector_ph (w : SelWord) (s : State) : (s.placeSelector w).ph = w.ph := rfl
@[simp] theorem State.placeSelector_bitidx (w : SelWord) (s : State) : (s.placeSelector w).bitidx = s.bitidx := rfl
@[simp] theorem State.placeSelector_hcnt (w : SelWord) (s : State) : (s.placeSelector w).hcnt = s.hcnt := rfl
@[simp] theorem State.placeSelector_tcnt (w : SelWord) (s : State) : (s.placeSelector w).tcnt = s.tcnt := rfl
@[simp] theorem State.placeSelector_ten (w : SelWord) (s : State) : (s.placeSelector w).ten = s.ten := rfl
@[simp] theorem State.placeSelector_t1 (w : SelWord) (s : State) : (s.placeSelector w).t1 = s.t1 := rfl
@[simp] theorem State.placeSelector_t2 (w : SelWord) (s : State) : (s.placeSelector w).t2 = s.t2 := rfl
@[simp] theorem State.placeSelector_raw (w : SelWord) (s : State) : (s.placeSelector w).raw = s.raw := rfl
@[simp] theorem State.placeSelector_hum (w : SelWord) (s : State) : (s.placeSelector w).hum = s.hum := rfl
@[simp] theorem State.placeSelector_temp (w : SelWord) (s : State) : (s.placeSelector w).temp = s.temp := rfl
@[simp] theorem State.placeSelector_res (w : SelWord) (s : State) : (s.placeSelector w).res = s.res := rfl
@[simp] theorem State.placeSelector_done (w : SelWord) (s : State) : (s.placeSelector w).done = s.done := rfl
@[simp] theorem State.placeSelector_dir (w : SelWord) (s : State) : (s.placeSelector w).dir = s.dir := rfl
@[simp] theorem State.placeSelector_lout (w : SelWord) (s : State) : (s.placeSelector w).lout = s.lout := rfl
@[simp] theorem State.placeSelector_mask (w : SelWord) (s : State) : (s.placeSelector w).mask = s.mask := rfl
@[simp] theorem State.placeSelector_holdTicks (w : SelWord) (s : State) : (s.placeSelector w).holdTicks = s.holdTicks := rfl
@[simp] theorem State.placeSelector_inputs (w : SelWord) (s : State) : (s.placeSelector w).inputs = w.inWord :: s.inputs := rfl
@[simp] theorem State.placeSelector_draws (w : SelWord) (s : State) : (s.placeSelector w).draws = s.draws := rfl

/-! ### `State.withStimulus` -/

@[simp] theorem State.withStimulus_ph (l : List InWord) (s : State) : (s.withStimulus l).ph = s.ph := rfl
@[simp] theorem State.withStimulus_bitidx (l : List InWord) (s : State) : (s.withStimulus l).bitidx = s.bitidx := rfl
@[simp] theorem State.withStimulus_hcnt (l : List InWord) (s : State) : (s.withStimulus l).hcnt = s.hcnt := rfl
@[simp] theorem State.withStimulus_tcnt (l : List InWord) (s : State) : (s.withStimulus l).tcnt = s.tcnt := rfl
@[simp] theorem State.withStimulus_ten (l : List InWord) (s : State) : (s.withStimulus l).ten = s.ten := rfl
@[simp] theorem State.withStimulus_t1 (l : List InWord) (s : State) : (s.withStimulus l).t1 = s.t1 := rfl
@[simp] theorem State.withStimulus_t2 (l : List InWord) (s : State) : (s.withStimulus l).t2 = s.t2 := rfl
@[simp] theorem State.withStimulus_raw (l : List InWord) (s : State) : (s.withStimulus l).raw = s.raw := rfl
@[simp] theorem State.withStimulus_hum (l : List InWord) (s : State) : (s.withStimulus l).hum = s.hum := rfl
@[simp] theorem State.withStimulus_temp (l : List InWord) (s : State) : (s.withStimulus l).temp = s.temp := rfl
@[simp] theorem State.withStimulus_res (l : List InWord) (s : State) : (s.withStimulus l).res = s.res := rfl
@[simp] theorem State.withStimulus_done (l : List InWord) (s : State) : (s.withStimulus l).done = s.done := rfl
@[simp] theorem State.withStimulus_dir (l : List InWord) (s : State) : (s.withStimulus l).dir = s.dir := rfl
@[simp] theorem State.withStimulus_lout (l : List InWord) (s : State) : (s.withStimulus l).lout = s.lout := rfl
@[simp] theorem State.withStimulus_mask (l : List InWord) (s : State) : (s.withStimulus l).mask = s.mask := rfl
@[simp] theorem State.withStimulus_holdTicks (l : List InWord) (s : State) : (s.withStimulus l).holdTicks = s.holdTicks := rfl
@[simp] theorem State.withStimulus_inputs (l : List InWord) (s : State) : (s.withStimulus l).inputs = l ++ s.inputs := rfl
@[simp] theorem State.withStimulus_draws (l : List InWord) (s : State) : (s.withStimulus l).draws = s.draws := rfl

/-! ### `State.resetRegisters` -/

@[simp] theorem State.resetRegisters_ph (s : State) : s.resetRegisters.ph = Phase.idle.code := rfl
@[simp] theorem State.resetRegisters_bitidx (s : State) : s.resetRegisters.bitidx = 0 := rfl
@[simp] theorem State.resetRegisters_hcnt (s : State) : s.resetRegisters.hcnt = 0 := rfl
@[simp] theorem State.resetRegisters_tcnt (s : State) : s.resetRegisters.tcnt = 0 := rfl
@[simp] theorem State.resetRegisters_ten (s : State) : s.resetRegisters.ten = false := rfl
@[simp] theorem State.resetRegisters_t1 (s : State) : s.resetRegisters.t1 = 0 := rfl
@[simp] theorem State.resetRegisters_t2 (s : State) : s.resetRegisters.t2 = 0 := rfl
@[simp] theorem State.resetRegisters_raw (s : State) : s.resetRegisters.raw = s.raw := rfl
@[simp] theorem State.resetRegisters_hum (s : State) : s.resetRegisters.hum = 0 := rfl
@[simp] theorem State.resetRegisters_temp (s : State) : s.resetRegisters.temp = 0 := rfl
@[simp] theorem State.resetRegisters_res (s : State) : s.resetRegisters.res = .none := rfl
@[simp] theorem State.resetRegisters_done (s : State) : s.resetRegisters.done = false := rfl
@[simp] theorem State.resetRegisters_dir (s : State) : s.resetRegisters.dir = .input := rfl
@[simp] theorem State.resetRegisters_lout (s : State) : s.resetRegisters.lout = .low := rfl
@[simp] theorem State.resetRegisters_mask (s : State) : s.resetRegisters.mask = false := rfl
@[simp] theorem State.resetRegisters_holdTicks (s : State) : s.resetRegisters.holdTicks = s.holdTicks := rfl
@[simp] theorem State.resetRegisters_inputs (s : State) : s.resetRegisters.inputs = s.inputs := rfl
@[simp] theorem State.resetRegisters_draws (s : State) : s.resetRegisters.draws = s.draws := rfl

/-! ### `State.afterInputs` -/

@[simp] theorem State.afterInputs_ph (n : Nat) (s : State) : (s.afterInputs n).ph = s.ph := rfl
@[simp] theorem State.afterInputs_bitidx (n : Nat) (s : State) : (s.afterInputs n).bitidx = s.bitidx := rfl
@[simp] theorem State.afterInputs_hcnt (n : Nat) (s : State) : (s.afterInputs n).hcnt = s.hcnt := rfl
@[simp] theorem State.afterInputs_tcnt (n : Nat) (s : State) : (s.afterInputs n).tcnt = s.tcnt := rfl
@[simp] theorem State.afterInputs_ten (n : Nat) (s : State) : (s.afterInputs n).ten = s.ten := rfl
@[simp] theorem State.afterInputs_t1 (n : Nat) (s : State) : (s.afterInputs n).t1 = s.t1 := rfl
@[simp] theorem State.afterInputs_t2 (n : Nat) (s : State) : (s.afterInputs n).t2 = s.t2 := rfl
@[simp] theorem State.afterInputs_raw (n : Nat) (s : State) : (s.afterInputs n).raw = s.raw := rfl
@[simp] theorem State.afterInputs_hum (n : Nat) (s : State) : (s.afterInputs n).hum = s.hum := rfl
@[simp] theorem State.afterInputs_temp (n : Nat) (s : State) : (s.afterInputs n).temp = s.temp := rfl
@[simp] theorem State.afterInputs_res (n : Nat) (s : State) : (s.afterInputs n).res = s.res := rfl
@[simp] theorem State.afterInputs_done (n : Nat) (s : State) : (s.afterInputs n).done = s.done := rfl
@[simp] theorem State.afterInputs_dir (n : Nat) (s : State) : (s.afterInputs n).dir = s.dir := rfl
@[simp] theorem State.afterInputs_lout (n : Nat) (s : State) : (s.afterInputs n).lout = s.lout := rfl
@[simp] theorem State.afterInputs_mask (n : Nat) (s : State) : (s.afterInputs n).mask = s.mask := rfl
@[simp] theorem State.afterInputs_holdTicks (n : Nat) (s : State) : (s.afterInputs n).holdTicks = s.holdTicks := rfl
@[simp] theorem State.afterInputs_inputs (n : Nat) (s : State) : (s.afterInputs n).inputs = s.inputs.drop n := rfl
@[simp] theorem State.afterInputs_draws (n : Nat) (s : State) : (s.afterInputs n).draws = s.draws + (n - s.inputs.length) := rfl

/-! ### `State.consumeInput` -/

@[simp] theorem State.consumeInput_ph (s : State) : s.consumeInput.ph = s.ph := by
  unfold State.consumeInput; split <;> rfl
@[simp] theorem State.consumeInput_bitidx (s : State) : s.consumeInput.bitidx = s.bitidx := by
  unfold State.consumeInput; split <;> rfl
@[simp] theorem State.consumeInput_hcnt (s : State) : s.consumeInput.hcnt = s.hcnt := by
  unfold State.consumeInput; split <;> rfl
@[simp] theorem State.consumeInput_tcnt (s : State) : s.consumeInput.tcnt = s.tcnt := by
  unfold State.consumeInput; split <;> rfl
@[simp] theorem State.consumeInput_ten (s : State) : s.consumeInput.ten = s.ten := by
  unfold State.consumeInput; split <;> rfl
@[simp] theorem State.consumeInput_t1 (s : State) : s.consumeInput.t1 = s.t1 := by
  unfold State.consumeInput; split <;> rfl
@[simp] theorem State.consumeInput_t2 (s : State) : s.consumeInput.t2 = s.t2 := by
  unfold State.consumeInput; split <;> rfl
@[simp] theorem State.consumeInput_raw (s : State) : s.consumeInput.raw = s.raw := by
  unfold State.consumeInput; split <;> rfl
@[simp] theorem State.consumeInput_hum (s : State) : s.consumeInput.hum = s.hum := by
  unfold State.consumeInput; split <;> rfl
@[simp] theorem State.consumeInput_temp (s : State) : s.consumeInput.temp = s.temp := by
  unfold State.consumeInput; split <;> rfl
@[simp] theorem State.consumeInput_res (s : State) : s.consumeInput.res = s.res := by
  unfold State.consumeInput; split <;> rfl
@[simp] theorem State.consumeInput_done (s : State) : s.consumeInput.done = s.done := by
  unfold State.consumeInput; split <;> rfl
@[simp] theorem State.consumeInput_dir (s : State) : s.consumeInput.dir = s.dir := by
  unfold State.consumeInput; split <;> rfl
@[simp] theorem State.consumeInput_lout (s : State) : s.consumeInput.lout = s.lout := by
  unfold State.consumeInput; split <;> rfl
@[simp] theorem State.consumeInput_mask (s : State) : s.consumeInput.mask = s.mask := by
  unfold State.consumeInput; split <;> rfl
@[simp] theorem State.consumeInput_holdTicks (s : State) : s.consumeInput.holdTicks = s.holdTicks := by
  unfold State.consumeInput; split <;> rfl
@[simp] theorem State.consumeInput_inputs (s : State) : s.consumeInput.inputs = s.inputs.tail := by
  unfold State.consumeInput; split <;> simp [*]
@[simp] theorem State.consumeInput_draws (s : State) :
    s.consumeInput.draws = if s.inputs = [] then s.draws + 1 else s.draws := by
  unfold State.consumeInput; split <;> simp [*]

end Sys2Proof.Machine
end

