-- ==== Sys2Proof/Laws/Ops.lean ====
section
/-! SUPPORT. What each shared operation can do, said once: the wait procedure, the exits, the phase codes, the input
words of the coming edges, and runs of several edges. -/

namespace Sys2Proof.Machine

/-- A wait does exactly one of three things, tested in this order (rule R71). -/
theorem waitWhile_cases (level : Level) (onExit : Ticks → State → State) (lineIn : Level) (s : State) :
    (Config.tmo < s.tcnt.toNat ∧ waitWhile level onExit lineIn s = s.finish .timeout) ∨
    (s.tcnt.toNat ≤ Config.tmo ∧ lineIn ≠ level ∧ waitWhile level onExit lineIn s = onExit s.tcnt s) ∨
    (s.tcnt.toNat ≤ Config.tmo ∧ lineIn = level ∧ waitWhile level onExit lineIn s = s.countTick) := by
  unfold waitWhile
  split
  · exact .inl ⟨‹_›, rfl⟩
  · split
    · exact .inr (.inl ⟨by omega, ‹_›, rfl⟩)
    · exact .inr (.inr ⟨by omega, by simpa using ‹¬lineIn ≠ level›, rfl⟩)

theorem waitWhile_timeout {level : Level} {onExit : Ticks → State → State} {lineIn : Level} {s : State}
    (h : Config.tmo < s.tcnt.toNat) : waitWhile level onExit lineIn s = s.finish .timeout := by
  simp [waitWhile, h, State.abort]

theorem waitWhile_exit {level : Level} {onExit : Ticks → State → State} {lineIn : Level} {s : State}
    (h : s.tcnt.toNat ≤ Config.tmo) (hl : lineIn ≠ level) :
    waitWhile level onExit lineIn s = onExit s.tcnt s := by
  simp [waitWhile, Nat.not_lt.mpr h, hl]

theorem waitWhile_count {level : Level} {onExit : Ticks → State → State} {s : State}
    (h : s.tcnt.toNat ≤ Config.tmo) : waitWhile level onExit level s = s.countTick := by
  simp [waitWhile, Nat.not_lt.mpr h]

/-- A tick counted within the timeout does not wrap (rule R32). -/
theorem tick_toNat {v : Ticks} (h : v.toNat ≤ 500) : (v + 1#10).toNat = v.toNat + 1 := by bv_omega

/-- `Abort` is `Finish` (rule R91). -/
theorem State.abort_eq_finish (c : Result) (s : State) : s.abort c = s.finish c := rfl

/-- Distinct phases have distinct codes (rule R54). -/
@[simp] theorem Phase.code_inj (p q : Phase) : p.code = q.code ↔ p = q := by
  cases p <;> cases q <;> decide

/-- Every phase's code is legal (rule R54). -/
theorem Phase.code_le (p : Phase) : p.code.toNat ≤ 8 := by cases p <;> decide

@[simp] theorem Phase.ofCode_code (p : Phase) : Phase.ofCode? p.code = some p := by cases p <;> rfl

/-- A phase register that is legal holds the code of a phase (rule R55). -/
theorem Phase.exists_code {ph : PhaseWord} (h : ph.toNat ≤ 8) : ∃ p : Phase, ph = p.code := by
  have : ∀ ph : PhaseWord, ph.toNat ≤ 8 → ph = Phase.idle.code ∨ ph = Phase.hold.code ∨ ph = Phase.ackA.code ∨
      ph = Phase.ackB.code ∨ ph = Phase.ackC.code ∨ ph = Phase.valid.code ∨ ph = Phase.bitL.code ∨
      ph = Phase.bitH.code ∨ ph = Phase.check.code := by decide
  rcases this ph h with h | h | h | h | h | h | h | h | h <;> exact ⟨_, h⟩

/-- The sampled word of the edge after next, seen from the next edge (rule R11). -/
@[simp] theorem State.inputAt_consumeInput (s : State) (k : Nat) :
    s.consumeInput.inputAt k = s.inputAt (k + 1) := by
  unfold State.inputAt
  cases h : s.inputs with
  | nil => simp [h]; congr 1; omega
  | cons w rest => simp [h]

/-- The inputs to come depend on the input fields only. -/
theorem State.inputAt_congr {s t : State} (hi : s.inputs = t.inputs) (hd : s.draws = t.draws) (k : Nat) :
    s.inputAt k = t.inputAt k := by
  simp [State.inputAt, hi, hd]

/-- The given inputs come first. -/
theorem State.inputAt_zero_of_cons {s : State} {w : InWord} {rest : List InWord} (h : s.inputs = w :: rest) :
    s.inputAt 0 = w := by
  simp [State.inputAt, h]

theorem State.consumeInput_of_cons {s : State} {w : InWord} {rest : List InWord} (h : s.inputs = w :: rest) :
    s.consumeInput = { s with inputs := rest } := by
  simp [State.consumeInput, h]

@[simp] theorem State.afterInputs_zero (s : State) : s.afterInputs 0 = s := by
  simp [State.afterInputs]

@[simp] theorem State.afterInputs_one (s : State) : s.afterInputs 1 = s.consumeInput := by
  unfold State.afterInputs State.consumeInput
  cases s.inputs with
  | nil => simp
  | cons w rest => simp

/-- The inputs of `n + 1` edges, the first of them set apart. -/
theorem State.afterInputs_succ (s : State) (n : Nat) :
    s.afterInputs (n + 1) = s.consumeInput.afterInputs n := by
  unfold State.afterInputs State.consumeInput
  cases s.inputs with
  | nil => simp; omega
  | cons w rest => simp

/-- Sampling the inputs of `m` edges and then of `n` is sampling those of `m + n`. -/
theorem State.afterInputs_add (s : State) (m n : Nat) :
    (s.afterInputs m).afterInputs n = s.afterInputs (m + n) := by
  simp only [State.afterInputs, List.drop_drop, List.length_drop]
  congr 1
  omega

/-- A run of `n + 1` edges is one edge and a run of `n`. -/
theorem steps_succ (n : Nat) (s : State) :
    steps (n + 1) s =
      match step s with
      | .next t => steps n t
      | .fault r => .fault r
      | .refused r => .refused r := rfl

theorem steps_succ_of_next {n : Nat} {s t : State} (h : step s = .next t) : steps (n + 1) s = steps n t := by
  rw [steps_succ, h]

/-- Runs compose. -/
theorem steps_add {n m : Nat} {s t : State} (h : steps n s = .next t) : steps (n + m) s = steps m t := by
  induction n generalizing s with
  | zero => simp only [steps, Host.Outcome.next.injEq] at h; subst h; simp
  | succ n ih =>
    rw [steps_succ] at h
    split at h
    · rename_i u hu
      rw [Nat.add_right_comm, steps_succ_of_next hu, ih h]
    · cases h
    · cases h

end Sys2Proof.Machine
end

