-- ==== Sys2Proof/Laws/Exec.lean ====
section
/-! SUPPORT. What each instruction can do, said once: `Edge i s t` lists every way the rule `i` takes `s` to `t`, and
`exec_next_iff` says that `exec` answers a next state in exactly these ways. Later proofs split `Edge`, and unfold no
meaning. -/

namespace Sys2Proof.Machine

/-- What the classes of a high pulse mean (rule R61). -/
theorem classify_cases (w : Ticks) :
    ((20 < w.toNat ∧ w.toNat < 30) ∧ classify w = .bit 0) ∨
    ((60 < w.toNat ∧ w.toNat < 80) ∧ classify w = .bit 1) ∨
    (¬(20 < w.toNat ∧ w.toNat < 30) ∧ ¬(60 < w.toNat ∧ w.toNat < 80) ∧ classify w = .invalid) := by
  unfold classify Config.b0Lo Config.b0Hi Config.b1Lo Config.b1Hi
  split
  · exact .inl ⟨‹_›, rfl⟩
  · split
    · exact .inr (.inl ⟨‹_›, rfl⟩)
    · exact .inr (.inr ⟨‹_›, ‹_›, rfl⟩)

/-- An acknowledgment width is valid exactly when it is 61 to 99 (rule R62). -/
theorem ackWidthOk_iff (t : Ticks) : ackWidthOk t = true ↔ 60 < t.toNat ∧ t.toNat < 100 := by
  unfold ackWidthOk Config.ackLo Config.ackHi; exact decide_eq_true_iff

/-- The checksum is the sum of two bytes modulo 256 (rule R84). -/
theorem checksumOk_iff (h t p : Byte) : checksumOk h t p = true ↔ (h.toNat + t.toNat) % 256 = p.toNat := by
  simp [checksumOk]

/-- Every way a step rule can take one state to the next. -/
inductive Edge : Instr → State → State → Prop where
  | reset {ph st l s} : Edge (.reset ph st l) s s.resetRegisters
  | nop {l s} : Edge (.nop l) s s.clearDone
  | read {l s} : Edge (.read l) s ((s.clearDone.driveLow.setHcnt 0).goto .hold)
  | holdRelease {st l s} (last : s.hcnt = s.holdTicks.val - 1) :
      Edge (.hold st l) s (s.clearDone.releaseLine.restartTimer.goto .ackA)
  | holdCount {st l s} (early : s.hcnt ≠ s.holdTicks.val - 1) :
      Edge (.hold st l) s (s.clearDone.setHcnt (s.hcnt + 1))
  | ackATimeout {st l s} (late : 500 < s.tcnt.toNat) : Edge (.ackA st l) s (s.clearDone.finish .timeout)
  | ackAExit {st s} (inTime : s.tcnt.toNat ≤ 500) :
      Edge (.ackA st .low) s (s.clearDone.restartTimer.goto .ackB)
  | ackACount {st s} (inTime : s.tcnt.toNat ≤ 500) : Edge (.ackA st .high) s s.clearDone.countTick
  | ackBTimeout {st l s} (late : 500 < s.tcnt.toNat) : Edge (.ackB st l) s (s.clearDone.finish .timeout)
  | ackBExit {st s} (inTime : s.tcnt.toNat ≤ 500) :
      Edge (.ackB st .high) s ((s.clearDone.setT1 s.tcnt).restartTimer.goto .ackC)
  | ackBCount {st s} (inTime : s.tcnt.toNat ≤ 500) : Edge (.ackB st .low) s s.clearDone.countTick
  | ackCTimeout {st l s} (late : 500 < s.tcnt.toNat) : Edge (.ackC st l) s (s.clearDone.finish .timeout)
  | ackCExit {st s} (inTime : s.tcnt.toNat ≤ 500) :
      Edge (.ackC st .low) s ((s.clearDone.setT2 s.tcnt).restartTimer.goto .valid)
  | ackCCount {st s} (inTime : s.tcnt.toNat ≤ 500) : Edge (.ackC st .high) s s.clearDone.countTick
  | validPass {st l s} (pass1 : ackWidthOk s.t1 = true) (pass2 : ackWidthOk s.t2 = true) :
      Edge (.valid st l) s ((s.clearDone.setBitidx 0).restartTimer.goto .bitL)
  | validFail {st l s} (bad : ¬(ackWidthOk s.t1 = true ∧ ackWidthOk s.t2 = true)) :
      Edge (.valid st l) s (s.clearDone.finish .invalidHandshake)
  | bitLTimeout {st l s} (late : 500 < s.tcnt.toNat) : Edge (.bitL st l) s (s.clearDone.finish .timeout)
  | bitLExit {st s} (inTime : s.tcnt.toNat ≤ 500) :
      Edge (.bitL st .high) s (s.clearDone.restartTimer.goto .bitH)
  | bitLCount {st s} (inTime : s.tcnt.toNat ≤ 500) : Edge (.bitL st .low) s s.clearDone.countTick
  | bitHTimeout {st l s} (late : 500 < s.tcnt.toNat) : Edge (.bitH st l) s (s.clearDone.finish .timeout)
  | bitHInvalid {st s} (inTime : s.tcnt.toNat ≤ 500) (bad : classify s.tcnt = .invalid) :
      Edge (.bitH st .low) s (s.clearDone.finish .invalidBitTiming)
  | bitHLast {st s b} (inTime : s.tcnt.toNat ≤ 500) (good : classify s.tcnt = .bit b) (last : s.bitidx = 39) :
      Edge (.bitH st .low) s ((s.clearDone.storeBit b).endSampling.restartTimer.goto .check)
  | bitHNext {st s b} (inTime : s.tcnt.toNat ≤ 500) (good : classify s.tcnt = .bit b) (more : s.bitidx ≠ 39) :
      Edge (.bitH st .low) s
        (((s.clearDone.storeBit b).setBitidx (s.bitidx + 1)).restartTimer.goto .bitL)
  | bitHCount {st s} (inTime : s.tcnt.toNat ≤ 500) : Edge (.bitH st .high) s s.clearDone.countTick
  | checkOk {st l s h t p} (readH : s.raw.readByte 0 = some h) (readT : s.raw.readByte 16 = some t)
      (readP : s.raw.readByte 32 = some p) (good : checksumOk h t p = true) :
      Edge (.check st l) s ((s.clearDone.publish h t).finish .ok)
  | checkMismatch {st l s h t p} (readH : s.raw.readByte 0 = some h) (readT : s.raw.readByte 16 = some t)
      (readP : s.raw.readByte 32 = some p) (bad : checksumOk h t p = false) :
      Edge (.check st l) s (s.clearDone.finish .checksumMismatch)

/-- The answer of `CHECK` in terms of its three fields (rule R86). -/
theorem execCheck_cases (st : Bool) (l : Level) (s : State) :
    (∃ h t p, s.raw.readByte 0 = some h ∧ s.raw.readByte 16 = some t ∧ s.raw.readByte 32 = some p ∧
      exec (.check st l) s = .next (checkBytes h t p s.clearDone)) ∨
    ((s.raw.readByte 0 = none ∨ s.raw.readByte 16 = none ∨ s.raw.readByte 32 = none) ∧
      exec (.check st l) s = .fault .rawCellUnwritten) := by
  simp only [exec, execCheck, humBase, tempBase, parityBase]
  cases s.raw.readByte 0 <;> cases s.raw.readByte 16 <;> cases s.raw.readByte 32 <;> simp

/-- Soundness of `Edge`: `exec` answers a next state only in the listed ways. -/
theorem edge_of_exec {i : Instr} {s t : State} (h : exec i s = .next t) : Edge i s t := by
  cases i with
  | reset ph st l => cases h; exact .reset
  | nop l => cases h; exact .nop
  | read l => cases h; exact .read
  | hold st l =>
    simp only [exec, execHold, Host.Outcome.next.injEq] at h
    subst h
    split
    · exact .holdRelease ‹_›
    · exact .holdCount ‹_›
  | ackA st l =>
    simp only [exec, execAckA, Host.Outcome.next.injEq] at h
    subst h
    rcases waitWhile_cases .high ackAExit l s.clearDone with ⟨hc, he⟩ | ⟨hc, hl, he⟩ | ⟨hc, hl, he⟩ <;> rw [he]
    · exact .ackATimeout hc
    · cases l with
      | low => exact .ackAExit hc
      | high => exact absurd rfl hl
    · subst hl; exact .ackACount hc
  | ackB st l =>
    simp only [exec, execAckB, Host.Outcome.next.injEq] at h
    subst h
    rcases waitWhile_cases .low ackBExit l s.clearDone with ⟨hc, he⟩ | ⟨hc, hl, he⟩ | ⟨hc, hl, he⟩ <;> rw [he]
    · exact .ackBTimeout hc
    · cases l with
      | low => exact absurd rfl hl
      | high => exact .ackBExit hc
    · subst hl; exact .ackBCount hc
  | ackC st l =>
    simp only [exec, execAckC, Host.Outcome.next.injEq] at h
    subst h
    rcases waitWhile_cases .high ackCExit l s.clearDone with ⟨hc, he⟩ | ⟨hc, hl, he⟩ | ⟨hc, hl, he⟩ <;> rw [he]
    · exact .ackCTimeout hc
    · cases l with
      | low => exact .ackCExit hc
      | high => exact absurd rfl hl
    · subst hl; exact .ackCCount hc
  | valid st l =>
    simp only [exec, execValid, Host.Outcome.next.injEq] at h
    subst h
    split
    · rename_i hok
      rw [Bool.and_eq_true] at hok
      exact .validPass hok.1 hok.2
    · rename_i hok
      exact .validFail (by simpa using hok)
  | bitL st l =>
    simp only [exec, execBitL, Host.Outcome.next.injEq] at h
    subst h
    rcases waitWhile_cases .low bitLExit l s.clearDone with ⟨hc, he⟩ | ⟨hc, hl, he⟩ | ⟨hc, hl, he⟩ <;> rw [he]
    · exact .bitLTimeout hc
    · cases l with
      | low => exact absurd rfl hl
      | high => exact .bitLExit hc
    · subst hl; exact .bitLCount hc
  | bitH st l =>
    simp only [exec, execBitH, Host.Outcome.next.injEq] at h
    subst h
    rcases waitWhile_cases .high bitHExit l s.clearDone with ⟨hc, he⟩ | ⟨hc, hl, he⟩ | ⟨hc, hl, he⟩ <;> rw [he]
    · exact .bitHTimeout hc
    · cases l with
      | low =>
        simp only [State.clearDone_tcnt, bitHExit]
        split
        · exact .bitHInvalid hc ‹_›
        · split
          · exact .bitHLast hc ‹_› ‹_›
          · exact .bitHNext hc ‹_› ‹_›
      | high => exact absurd rfl hl
    · subst hl; exact .bitHCount hc
  | check st l =>
    rcases execCheck_cases st l s with ⟨hb, tb, pb, h1, h2, h3, he⟩ | ⟨-, he⟩
    · rw [he] at h
      cases h
      unfold checkBytes
      split
      · exact .checkOk h1 h2 h3 ‹_›
      · exact .checkMismatch h1 h2 h3 (by simpa using ‹¬checksumOk hb tb pb = true›)
    · rw [he] at h; cases h

/-- Completeness of `Edge`: in each listed way `exec` does answer that next state. -/
theorem exec_of_edge {i : Instr} {s t : State} (h : Edge i s t) : exec i s = .next t := by
  cases h with
  | reset => rfl
  | nop => rfl
  | read => rfl
  | holdRelease last => simp [exec, execHold, last]
  | holdCount early => simp [exec, execHold, early]
  | ackATimeout late => exact congrArg Host.Outcome.next (waitWhile_timeout (s := s.clearDone) late)
  | ackAExit inTime => exact congrArg Host.Outcome.next (waitWhile_exit (s := s.clearDone) inTime Level.noConfusion)
  | ackACount inTime => exact congrArg Host.Outcome.next (waitWhile_count (s := s.clearDone) inTime)
  | ackBTimeout late => exact congrArg Host.Outcome.next (waitWhile_timeout (s := s.clearDone) late)
  | ackBExit inTime => exact congrArg Host.Outcome.next (waitWhile_exit (s := s.clearDone) inTime Level.noConfusion)
  | ackBCount inTime => exact congrArg Host.Outcome.next (waitWhile_count (s := s.clearDone) inTime)
  | ackCTimeout late => exact congrArg Host.Outcome.next (waitWhile_timeout (s := s.clearDone) late)
  | ackCExit inTime => exact congrArg Host.Outcome.next (waitWhile_exit (s := s.clearDone) inTime Level.noConfusion)
  | ackCCount inTime => exact congrArg Host.Outcome.next (waitWhile_count (s := s.clearDone) inTime)
  | validPass pass1 pass2 => simp [exec, execValid, pass1, pass2]
  | validFail bad =>
    simp only [exec, execValid, Bool.and_eq_true]
    rw [if_neg bad, State.abort_eq_finish]
  | bitLTimeout late => exact congrArg Host.Outcome.next (waitWhile_timeout (s := s.clearDone) late)
  | bitLExit inTime => exact congrArg Host.Outcome.next (waitWhile_exit (s := s.clearDone) inTime Level.noConfusion)
  | bitLCount inTime => exact congrArg Host.Outcome.next (waitWhile_count (s := s.clearDone) inTime)
  | bitHTimeout late => exact congrArg Host.Outcome.next (waitWhile_timeout (s := s.clearDone) late)
  | bitHInvalid inTime bad =>
    refine congrArg Host.Outcome.next ((waitWhile_exit (s := s.clearDone) inTime Level.noConfusion).trans ?_)
    simp [bitHExit, bad, State.abort_eq_finish]
  | bitHLast inTime good last =>
    refine congrArg Host.Outcome.next ((waitWhile_exit (s := s.clearDone) inTime Level.noConfusion).trans ?_)
    simp [bitHExit, good, last]
  | bitHNext inTime good more =>
    refine congrArg Host.Outcome.next ((waitWhile_exit (s := s.clearDone) inTime Level.noConfusion).trans ?_)
    simp [bitHExit, good, more]
  | bitHCount inTime => exact congrArg Host.Outcome.next (waitWhile_count (s := s.clearDone) inTime)
  | checkOk readH readT readP good =>
    simp [exec, execCheck, humBase, tempBase, parityBase, readH, readT, readP, checkBytes, good]
  | checkMismatch readH readT readP bad =>
    simp [exec, execCheck, humBase, tempBase, parityBase, readH, readT, readP, checkBytes, bad]

/-- `exec` answers a next state in exactly the ways `Edge` lists. -/
theorem exec_next_iff {i : Instr} {s t : State} : exec i s = .next t ↔ Edge i s t :=
  ⟨edge_of_exec, exec_of_edge⟩

/-- Only `CHECK` can fault, and only on a cell that holds no value (rule R40). -/
theorem exec_fault {i : Instr} {s : State} {r : Fault} (h : exec i s = .fault r) :
    ∃ st l, i = .check st l ∧
      (s.raw.readByte 0 = none ∨ s.raw.readByte 16 = none ∨ s.raw.readByte 32 = none) := by
  cases i with
  | check st l =>
    rcases execCheck_cases st l s with ⟨_, _, _, _, _, _, he⟩ | ⟨hn, -⟩
    · rw [he] at h; cases h
    · exact ⟨st, l, rfl, hn⟩
  | _ => cases h

/-- No instruction is refused. -/
theorem exec_not_refused {i : Instr} {s : State} {r : Refusal} : exec i s ≠ .refused r := by
  intro h
  cases i with
  | check st l =>
    rcases execCheck_cases st l s with ⟨_, _, _, _, _, _, he⟩ | ⟨-, he⟩ <;> (rw [he] at h; cases h)
  | _ => cases h

end Sys2Proof.Machine
end

