-- ==== Sys2Proof/Laws/PerInstr.lean ====
section
/-! SUPPORT. Statements made of every instruction as syntax, one lemma per constructor. Family `TableRow`: the
instruction's selector word belongs to the row of `opcode_table.json` that carries its mnemonic, and to no other. -/

namespace Sys2Proof.Laws.TableRow

/-- The encoding of `i` matches its own row of the opcode table and no other row. -/
def Statement (i : Instr) : Prop :=
  (opcodeTable.filter fun r => r.matches (encode i)).map OpcodeRow.mnemonic = [i.mnemonic]

theorem reset (ph : PhaseWord) (start : Bool) (lineIn : Level) : Statement (.reset ph start lineIn) := by
  unfold Statement
  cases lineIn <;> cases start <;> (revert ph; decide)

theorem nop (lineIn : Level) : Statement (.nop lineIn) := by
  unfold Statement
  cases lineIn <;> decide

theorem read (lineIn : Level) : Statement (.read lineIn) := by
  unfold Statement
  cases lineIn <;> decide

theorem hold (start : Bool) (lineIn : Level) : Statement (.hold start lineIn) := by
  unfold Statement
  cases lineIn <;> cases start <;> decide

theorem ackA (start : Bool) (lineIn : Level) : Statement (.ackA start lineIn) := by
  unfold Statement
  cases lineIn <;> cases start <;> decide

theorem ackB (start : Bool) (lineIn : Level) : Statement (.ackB start lineIn) := by
  unfold Statement
  cases lineIn <;> cases start <;> decide

theorem ackC (start : Bool) (lineIn : Level) : Statement (.ackC start lineIn) := by
  unfold Statement
  cases lineIn <;> cases start <;> decide

theorem valid (start : Bool) (lineIn : Level) : Statement (.valid start lineIn) := by
  unfold Statement
  cases lineIn <;> cases start <;> decide

theorem bitL (start : Bool) (lineIn : Level) : Statement (.bitL start lineIn) := by
  unfold Statement
  cases lineIn <;> cases start <;> decide

theorem bitH (start : Bool) (lineIn : Level) : Statement (.bitH start lineIn) := by
  unfold Statement
  cases lineIn <;> cases start <;> decide

theorem check (start : Bool) (lineIn : Level) : Statement (.check start lineIn) := by
  unfold Statement
  cases lineIn <;> cases start <;> decide

end Sys2Proof.Laws.TableRow
end

