-- ==== Sys2Proof/Laws/Step.lean ====
section
/-! SUPPORT. Step selection, said once (rule R51): what the decoder answers for a phase and an input word, and what a
step can do in terms of `Edge`. -/

namespace Sys2Proof.Machine

/-- The rule that fires in a phase on an input word without reset (rule R51 (2)). -/
def ruleOf (p : Phase) (w : InWord) : Instr :=
  match p with
  | .idle => if w.start then .read w.lineIn else .nop w.lineIn
  | .hold => .hold w.start w.lineIn
  | .ackA => .ackA w.start w.lineIn
  | .ackB => .ackB w.start w.lineIn
  | .ackC => .ackC w.start w.lineIn
  | .valid => .valid w.start w.lineIn
  | .bitL => .bitL w.start w.lineIn
  | .bitH => .bitH w.start w.lineIn
  | .check => .check w.start w.lineIn

/-- Reset is selected first, whatever the phase register holds (rule R51 (1)). -/
theorem decode_reset (ph : PhaseWord) {w : InWord} (h : w.rst = true) :
    decode (selector ph w) = .ok (.reset ph w.start w.lineIn) := by
  revert ph w; decide

/-- Otherwise the phase selects (rule R51 (2)). -/
theorem decode_phase (p : Phase) {w : InWord} (h : w.rst = false) :
    decode (selector p.code w) = .ok (ruleOf p w) := by
  revert w; cases p <;> decide

/-- A reserved phase value selects nothing (rule R55). -/
theorem decode_reserved {ph : PhaseWord} {w : InWord} (h : w.rst = false) (hp : 8 < ph.toNat) :
    decode (selector ph w) = .error (.reservedPhase ph) := by
  revert ph w; decide

/-- A step with reset sampled (rule R51 (1)). -/
theorem step_reset {s : State} (h : (s.inputAt 0).rst = true) : step s = .next s.consumeInput.resetRegisters := by
  simp [step, decode_reset s.ph h, exec, execReset]

/-- A step in a phase without reset (rule R51 (2)). -/
theorem step_phase {s : State} {p : Phase} (hp : s.ph = p.code) (h : (s.inputAt 0).rst = false) :
    step s = exec (ruleOf p (s.inputAt 0)) s.consumeInput := by
  simp [step, hp, decode_phase p h]

/-- Every way a step can answer a next state. -/
theorem step_next_cases {s t : State} (h : step s = .next t) :
    ((s.inputAt 0).rst = true ∧ t = s.consumeInput.resetRegisters) ∨
    ((s.inputAt 0).rst = false ∧
      ∃ p : Phase, s.ph = p.code ∧ Edge (ruleOf p (s.inputAt 0)) s.consumeInput t) := by
  cases hr : (s.inputAt 0).rst with
  | true =>
    rw [step_reset hr] at h
    cases h
    exact .inl ⟨rfl, rfl⟩
  | false =>
    refine .inr ⟨rfl, ?_⟩
    by_cases hp : s.ph.toNat ≤ 8
    · obtain ⟨p, hp⟩ := Phase.exists_code hp
      rw [step_phase hp hr] at h
      exact ⟨p, hp, edge_of_exec h⟩
    · simp [step, decode_reserved hr (Nat.lt_of_not_le hp)] at h

/-- A listed way of the selected rule is what the step does. -/
theorem step_of_edge {s t : State} {p : Phase} (hp : s.ph = p.code) (hr : (s.inputAt 0).rst = false)
    (h : Edge (ruleOf p (s.inputAt 0)) s.consumeInput t) : step s = .next t := by
  rw [step_phase hp hr, exec_of_edge h]

/-! ### The five wait phases, as steps -/

/-- In a wait phase the selected rule is the wait of that phase's level and exit (rules R73, R74, R75, R79, R80). -/
theorem exec_wait {p : Phase} {level : Level} (hw : waitLevel p = some level) (w : InWord) (s : State) :
    exec (ruleOf p w) s = .next (waitWhile level (waitExit p) w.lineIn s.clearDone) := by
  cases p <;> cases hw <;> rfl

/-- A wait step that times out, whatever the line shows (rule R71). -/
theorem step_wait_timeout {s : State} {p : Phase} {level : Level} (hw : waitLevel p = some level)
    (hp : s.ph = p.code) (hr : (s.inputAt 0).rst = false) (ht : 500 < s.tcnt.toNat) :
    step s = .next (s.consumeInput.clearDone.finish .timeout) := by
  rw [step_phase hp hr, exec_wait hw, waitWhile_timeout (by simpa [Config.tmo] using ht)]

/-- A wait step that finds the line away from its level (rule R71). -/
theorem step_wait_exit {s : State} {p : Phase} {level : Level} (hw : waitLevel p = some level)
    (hp : s.ph = p.code) (hr : (s.inputAt 0).rst = false) (ht : s.tcnt.toNat ≤ 500)
    (hl : (s.inputAt 0).lineIn ≠ level) :
    step s = .next (waitExit p s.tcnt s.consumeInput.clearDone) := by
  rw [step_phase hp hr, exec_wait hw, waitWhile_exit (by simpa [Config.tmo] using ht) hl]
  simp

/-- A wait step that goes on (rule R71). -/
theorem step_wait_count {s : State} {p : Phase} {level : Level} (hw : waitLevel p = some level)
    (hp : s.ph = p.code) (hr : (s.inputAt 0).rst = false) (ht : s.tcnt.toNat ≤ 500)
    (hl : (s.inputAt 0).lineIn = level) :
    step s = .next s.consumeInput.clearDone.countTick := by
  rw [step_phase hp hr, exec_wait hw, hl, waitWhile_count (by simpa [Config.tmo] using ht)]

/-- The inputs to come after an edge are those after the first, whatever rule fired (rule R11). -/
theorem inputAt_of_step {s t : State} (h : step s = .next t) (k : Nat) : t.inputAt k = s.inputAt (k + 1) := by
  rw [← State.inputAt_consumeInput]
  rcases step_next_cases h with ⟨-, rfl⟩ | ⟨-, p, -, he⟩
  · exact State.inputAt_congr rfl rfl k
  · generalize ruleOf p (s.inputAt 0) = i at he
    cases he <;> exact State.inputAt_congr rfl rfl k

/-- The inputs to come after `n` edges are those from the `n`-th on (rule R11). -/
theorem inputAt_of_steps {n : Nat} {s t : State} (h : steps n s = .next t) (k : Nat) :
    t.inputAt k = s.inputAt (k + n) := by
  induction n generalizing s with
  | zero => cases h; rfl
  | succ n ih =>
    rw [steps_succ] at h
    split at h
    · rename_i u hu
      rw [ih h, inputAt_of_step hu, Nat.add_assoc]
    · cases h
    · cases h

/-- The invariant is about the registers, not about the inputs to come. -/
theorem State.Inv.consumeInput {s : State} (h : s.Inv) : s.consumeInput.Inv := by
  obtain ⟨h1, h2, h3, h4, h5, h6, h7, h8, h9, h10, h11, h12, h13⟩ := h
  constructor <;> simpa

end Sys2Proof.Machine
end

