-- ==== Sys2Proof/Tests/Slice0.lean ====
section
/-! SUPPORT. The model's own tests: ill-formed numbers the checks refuse, words written out from the spec's patterns,
one-step worked examples with the results the spec gives (each names its rule), and for each obligation with hypotheses
a concrete state and operands that meet them. -/

namespace Sys2Proof.Tests

open Sys2Proof Sys2Proof.Machine

/-! ### Helpers -/

/-- The next state, where there is one. -/
def next? : Host.Outcome State Fault Refusal → Option State
  | .next t => some t
  | .fault _ => none
  | .refused _ => none

/-- A small state in a phase, with `HOLD_TICKS = 3` as in the spec's vectors and the given inputs to come. -/
def inPhase (p : Phase) (inputs : List InWord) : State :=
  { State.reset with ph := p.code, holdTicks := ⟨3, by decide⟩, inputs := inputs }

/-- The cells of a frame, cell 0 first. -/
def cellsFrom (i : Nat) : List Bit → Memory
  | [] => []
  | b :: bs => (i, b) :: cellsFrom (i + 1) bs

/-- A byte's bits in order of arrival, most significant first (rule R45). -/
def bitsOf (v : Byte) : List Bit :=
  [v.extractLsb' 7 1, v.extractLsb' 6 1, v.extractLsb' 5 1, v.extractLsb' 4 1, v.extractLsb' 3 1, v.extractLsb' 2 1,
    v.extractLsb' 1 1, v.extractLsb' 0 1]

/-- `RAW` after a frame of five bytes (rule R59). -/
def frameCells (h hf t tf p : Byte) : Memory :=
  cellsFrom 0 (bitsOf h ++ bitsOf hf ++ bitsOf t ++ bitsOf tf ++ bitsOf p)

/-- A state of phase `CHECK` that has sampled a frame. -/
def sampled (h hf t tf p : Byte) : State :=
  { inPhase .check [0b001] with raw := frameCells h hf t tf p, bitidx := 39 }

/-- A state of a timed phase, as a run reaches it: timer and mask request on. -/
def timed (p : Phase) (tcnt : Ticks) (inputs : List InWord) : State :=
  { inPhase p inputs with ten := true, mask := true, tcnt := tcnt }

/-- An input list that begins with one word over and over gives that word at each of these edges. -/
theorem inputAt_run {s : State} {w : InWord} {n k : Nat} {rest : List InWord}
    (h : s.inputs = List.replicate n w ++ rest) (hk : k < n) : s.inputAt k = w := by
  simp [State.inputAt, h, List.getElem?_append, hk]

/-- And at the edge after them the word that follows. -/
theorem inputAt_after_run {s : State} {w v : InWord} {n : Nat} {rest : List InWord}
    (h : s.inputs = List.replicate n w ++ v :: rest) : s.inputAt n = v := by
  simp [State.inputAt, h]

/-! ### Ill-formed numbers are refused -/

theorem test_selector_too_wide_refused :
    selectorFits 128 = false ∧ selectorWellFormed 128 = false ∧ decodeTableWord 8 128 = none := by decide
theorem test_selector_reserved_phase_refused :
    selectorNamesARule 0b1001000 = false ∧ selectorWellFormed 0b1001000 = false ∧
    decodeTableWord 8 0b1001000 = none ∧ decodeTableWord 8 0b1111011 = none := by decide
theorem test_reserved_phase_with_reset_accepted : selectorWellFormed 0b1001100 = true := by decide
theorem test_hold_ticks_zero_refused :
    holdTicksWellFormed 0 = false ∧ HoldTicks.ofNat? 0 = none ∧ holdTicksWellFormed 1 = true := by decide

/-! ### Decoding: words written out from the patterns of rules R53 and R54 -/

theorem test_decode_reset : decodeTableWord 8 0b0101110 = some (.reset 5 true .low) := by decide
theorem test_decode_nop : decodeTableWord 8 0b0000000 = some (.nop .low) := by decide
theorem test_decode_read : decodeTableWord 8 0b0000011 = some (.read .high) := by decide
theorem test_decode_hold : decodeTableWord 8 0b0001010 = some (.hold true .low) := by decide
theorem test_decode_ackA : decodeTableWord 8 0b0010001 = some (.ackA false .high) := by decide
theorem test_decode_ackB : decodeTableWord 8 0b0011010 = some (.ackB true .low) := by decide
theorem test_decode_ackC : decodeTableWord 8 0b0100011 = some (.ackC true .high) := by decide
theorem test_decode_valid : decodeTableWord 8 0b0101000 = some (.valid false .low) := by decide
theorem test_decode_bitL : decodeTableWord 8 0b0110010 = some (.bitL true .low) := by decide
theorem test_decode_bitH : decodeTableWord 8 0b0111001 = some (.bitH false .high) := by decide
theorem test_decode_check : decodeTableWord 8 0b1000000 = some (.check false .low) := by decide

/-! ### Worked examples, one step each -/

/-- Rule R108: from any state a reset edge gives the reset state, and `RAW` stays. -/
theorem test_reset_mid_transaction :
    next? (step { timed .bitH 17 [0b111] with raw := [(0, 1)], hum := 45, temp := 23, res := .ok, t1 := 80 }) =
      some { inPhase .idle [] with raw := [(0, 1)] } := by decide
/-- Rule R67: `H` leaves the reset state equal to the reset state. -/
theorem test_nop_keeps_the_reset_state : next? (step (inPhase .idle [0b001])) = some (inPhase .idle []) := by decide
/-- Rule R68, worked example: outputs `line_oe = 1, line_out = 0, busy = 1, done = 0, res = 0`. -/
theorem test_read_outputs :
    (next? (step (inPhase .idle [0b011]))).map (fun t => (t.ph, t.hcnt, t.outputs.word)) =
      some (1, 0, 0b1010000000000000000000000) := by decide
/-- Rule R69, worked example with `HOLD_TICKS = 3`: the third edge releases, `HCNT` stays 2. -/
theorem test_hold_releases :
    (next? (step { inPhase .hold [0b001] with hcnt := 2, dir := .output, tcnt := 9 })).map
      (fun t => (t.ph, t.dir, t.ten, t.mask, t.tcnt, t.hcnt)) = some (2, .input, true, true, 0, 2) := by decide
/-- Rule R69: before that it counts. -/
theorem test_hold_counts :
    (next? (step { inPhase .hold [0b001] with hcnt := 1, dir := .output })).map (fun t => (t.ph, t.hcnt, t.ten)) =
      some (1, 2, false) := by decide
/-- Rule R73, worked example: elapsed 30 is discarded. -/
theorem test_ackA_ends :
    (next? (step (timed .ackA 30 [0b000]))).map (fun t => (t.ph, t.tcnt, t.t1, t.t2)) = some (3, 0, 0, 0) := by decide
/-- Rules R71 and R73: the 502nd edge times out even if the line shows Low there. -/
theorem test_ackA_times_out :
    (next? (step (timed .ackA 501 [0b000]))).map (fun t => (t.ph, t.res, t.done, t.ten, t.mask, t.tcnt)) =
      some (0, .timeout, true, false, false, 501) := by decide
/-- Rule R74, worked example: `T1 = 80`. -/
theorem test_ackB_records :
    (next? (step (timed .ackB 80 [0b001]))).map (fun t => (t.ph, t.t1, t.t2, t.tcnt)) = some (4, 80, 0, 0) := by decide
/-- Rule R71: at `TCNT = 500` a wait still goes on. -/
theorem test_ackB_counts_at_500 :
    (next? (step (timed .ackB 500 [0b000]))).map (fun t => (t.ph, t.tcnt)) = some (3, 501) := by decide
/-- Rule R75, worked example: `T2 = 80`. -/
theorem test_ackC_records :
    (next? (step { timed .ackC 80 [0b000] with t1 := 70 })).map (fun t => (t.ph, t.t1, t.t2, t.tcnt)) =
      some (5, 70, 80, 0) := by decide
/-- Rule R76, worked example: `T1 = T2 = 80` passes. -/
theorem test_valid_passes :
    (next? (step { timed .valid 0 [0b001] with t1 := 80, t2 := 80, bitidx := 7 })).map
      (fun t => (t.ph, t.bitidx, t.done)) = some (6, 0, false) := by decide
/-- Rule R76, worked example: `T1 = 60` fails. -/
theorem test_valid_rejects_60 :
    (next? (step { timed .valid 0 [0b001] with t1 := 60, t2 := 80 })).map (fun t => (t.ph, t.res, t.done)) =
      some (0, .invalidHandshake, true) := by decide
/-- Rule R79, worked example. -/
theorem test_bitL_ends :
    (next? (step (timed .bitL 50 [0b001]))).map (fun t => (t.ph, t.tcnt, t.raw)) = some (7, 0, []) := by decide
/-- Rule R80, worked example: bit 39, width 70. -/
theorem test_bitH_stores_the_last_bit :
    (next? (step { timed .bitH 70 [0b000] with bitidx := 39 })).map (fun t => (t.ph, t.raw, t.ten, t.mask)) =
      some (8, [(39, 1)], false, false) := by decide
/-- Rule R80, worked example: width 45 stores nothing. -/
theorem test_bitH_rejects_45 :
    (next? (step { timed .bitH 45 [0b000] with raw := [(0, 1)] })).map (fun t => (t.ph, t.res, t.raw)) =
      some (0, .invalidBitTiming, [(0, 1)]) := by decide
/-- Rule R86, worked example: the bytes 45, 0, 23, 0, 68; the output word is the one of `95_test_vectors.md` E1. -/
theorem test_check_publishes :
    (next? (step (sampled 45 0 23 0 68))).map (fun t => t.outputs.word) = some 0x024B45C := by decide
/-- Rule R86, worked example: with the last byte 69 the readings stay. -/
theorem test_check_keeps_stale_readings :
    (next? (step { sampled 45 0 23 0 69 with hum := 7, temp := 9 })).map (fun t => (t.res, t.hum, t.temp)) =
      some (.checksumMismatch, 7, 9) := by decide

/-- Rule R78, worked examples. -/
theorem test_classify :
    [25, 70, 45, 20, 30, 60, 80, 21, 29, 61, 79, 0].map classify =
      [.bit 0, .bit 1, .invalid, .invalid, .invalid, .invalid, .invalid, .bit 0, .bit 0, .bit 1, .bit 1, .invalid] := by
  decide
/-- Rule R83, worked examples. -/
theorem test_pack :
    pack [0, 0, 1, 0, 1, 1, 0, 1] = 45 ∧ pack [0, 0, 0, 1, 0, 1, 1, 1] = 23 ∧ pack [0, 1, 0, 0, 0, 1, 0, 0] = 68 ∧
    pack [1, 1, 1, 1, 1, 1, 1, 1] = 255 ∧ pack [1, 0, 0, 0, 0, 0, 0, 0] = 128 ∧
    pack [0, 0, 0, 0, 0, 0, 0, 1] = 1 := by decide
/-- Rule R84, worked examples. -/
theorem test_checksum :
    checksumOk 45 23 68 = true ∧ checksumOk 45 23 69 = false ∧ checksumOk 200 100 44 = true ∧
    checksumOk 255 255 254 = true ∧ checksumOk 0 0 0 = true ∧ checksumOk 255 1 0 = true := by decide
/-- The host's placing: the word of the `READ` row runs `READ` as the first step after reset. -/
theorem test_fetch_word :
    (next? (step (State.reset.withFetchWord 8 0b0000010))).map (fun t => t.ph) = some 1 ∧
    (next? (step (State.reset.withFetchWord 8 0b0111000))).map (fun t => t.res) = some .invalidBitTiming := by decide

/-! ### Witnesses: encoding and selection -/

theorem witness_encode_of_decode : decode 0b0010010 = .ok (.ackA true .low) := by rfl
theorem witness_step_runs_decoded :
    decode (selector (inPhase .check [0b011]).ph ((inPhase .check [0b011]).inputAt 0)) = .ok (.check true .high) ∧
    (inPhase .check [0b011]).inputs = 0b011 :: [] ∧ State.reset.inputs = [] := ⟨rfl, rfl, rfl⟩
theorem witness_placed_table_word : decodeTableWord 8 0b1000011 = some (.check true .high) := by decide
theorem witness_selection_reset_idle :
    ((inPhase .hold [0b110]).inputAt 0).rst = true ∧
    ((inPhase .idle [0b001]).ph = Phase.idle.code ∧ ((inPhase .idle [0b001]).inputAt 0).rst = false ∧
      ((inPhase .idle [0b001]).inputAt 0).start = false) ∧
    ((inPhase .idle [0b010]).ph = Phase.idle.code ∧ ((inPhase .idle [0b010]).inputAt 0).rst = false ∧
      ((inPhase .idle [0b010]).inputAt 0).start = true) ∧
    (inPhase .check []).ph.toNat ≤ 8 := by decide
theorem witness_selected_in_phase :
    ∀ p ∈ [Phase.hold, .ackA, .ackB, .ackC, .valid, .bitL, .bitH, .check],
      (inPhase p [0b011]).ph = p.code ∧ ((inPhase p [0b011]).inputAt 0).rst = false := by decide
theorem witness_selection_done : ∃ t, exec (.check false .high) (sampled 45 0 23 0 68) = .next t ∧ t.done = true :=
  ⟨_, rfl, rfl⟩
theorem witness_reserved_phase :
    (8 < { inPhase .idle [0b011] with ph := 9 }.ph.toNat ∧
      ({ inPhase .idle [0b011] with ph := 9 }.inputAt 0).rst = false) ∧
    (8 < { inPhase .idle [0b000] with ph := 15 }.ph.toNat ∧
      ({ inPhase .idle [0b000] with ph := 15 }.inputAt 0).rst = false) := by decide
theorem witness_step_next : ∃ t, step (inPhase .idle [0b011]) = .next t := ⟨_, rfl⟩
theorem witness_reachable : Reachable State.reset := .fresh rfl

/-! ### Witnesses: reset, `IDLE`, phase 1 -/

theorem witness_held_reset : ∀ k, k ≤ 2 → ((inPhase .bitH [0b100, 0b111, 0b101]).inputAt k).rst = true := by decide
theorem witness_waits_in_idle :
    ∀ k, k < 2 → ((inPhase .idle [0b000, 0b001]).inputAt k).rst = false ∧
      ((inPhase .idle [0b000, 0b001]).inputAt k).start = false := by decide
theorem witness_fresh : (inPhase .idle [0b011]).Fresh := rfl
theorem witness_hold_clauses :
    { inPhase .hold [] with hcnt := 2 }.hcnt = (inPhase .hold []).holdTicks.val - 1 ∧
    { inPhase .hold [] with hcnt := 1 }.hcnt ≠ (inPhase .hold []).holdTicks.val - 1 := by decide
theorem witness_hold_run :
    (inPhase .hold [1, 2, 3]).ph = Phase.hold.code ∧ (inPhase .hold [1, 2, 3]).hcnt = 0 ∧
    ∀ k, k < (inPhase .hold [1, 2, 3]).holdTicks.val → ((inPhase .hold [1, 2, 3]).inputAt k).rst = false := by decide
theorem witness_start_ignored :
    (inPhase .ackA []).ph ≠ Phase.idle.code ∧ InWord.rst 0b011 = false ∧ InWord.rst 0b001 = false ∧
    InWord.lineIn 0b011 = InWord.lineIn 0b001 := by decide
theorem witness_leaves_for_idle :
    (timed .ackA 501 [0b001]).ph ≠ Phase.idle.code ∧ ((timed .ackA 501 [0b001]).inputAt 0).rst = false ∧
    ∃ t, step (timed .ackA 501 [0b001]) = .next t ∧ t.ph = Phase.idle.code :=
  ⟨by decide, by decide, _, rfl, rfl⟩
theorem witness_line_not_looked_at :
    (InWord.rst 0b000 = InWord.rst 0b001 ∧ InWord.start 0b000 = InWord.start 0b001) ∧ InWord.rst 0b100 = true ∧
    (inPhase .idle []).ph = Phase.idle.code ∧ (inPhase .hold []).ph = Phase.hold.code ∧
    (inPhase .valid []).ph = Phase.valid.code ∧ (inPhase .check []).ph = Phase.check.code ∧
    500 < (timed .bitH 501 []).tcnt.toNat := by decide

/-! ### Witnesses: the waits -/

theorem witness_wait_clauses :
    500 < (timed .ackA 501 []).tcnt.toNat ∧ (timed .ackA 500 []).tcnt.toNat ≤ 500 ∧ Level.low ≠ Level.high ∧
    classify 61 ≠ .invalid := by decide
theorem witness_wait_ends :
    let s := timed .ackB 0 (List.replicate 500 0b000 ++ [0b001])
    waitLevel .ackB = some .low ∧ s.ph = Phase.ackB.code ∧ s.tcnt = 0 ∧
    (∀ k, k < 500 → (s.inputAt k).rst = false ∧ (s.inputAt k).lineIn = .low) ∧
    (s.inputAt 500).rst = false ∧ (s.inputAt 500).lineIn ≠ .low := by
  refine ⟨rfl, rfl, rfl, fun k hk => ?_, ?_, ?_⟩
  · rw [inputAt_run rfl hk]; decide
  · rw [inputAt_after_run rfl]; decide
  · rw [inputAt_after_run rfl]; decide
theorem witness_wait_times_out :
    let s := timed .bitH 0 (List.replicate 501 0b001 ++ [0b000])
    waitLevel .bitH = some .high ∧ s.ph = Phase.bitH.code ∧ s.tcnt = 0 ∧
    (∀ k, k < 501 → (s.inputAt k).rst = false ∧ (s.inputAt k).lineIn = .high) ∧ (s.inputAt 501).rst = false := by
  refine ⟨rfl, rfl, rfl, fun k hk => ?_, ?_⟩
  · rw [inputAt_run rfl hk]; decide
  · rw [inputAt_after_run rfl]; decide
theorem witness_valid_bounds :
    let good : State := { timed .valid 0 [] with t1 := 61, t2 := 99 }
    let bad : State := { timed .valid 0 [] with t1 := 60, t2 := 99 }
    let bad' : State := { timed .valid 0 [] with t1 := 61, t2 := 100 }
    (60 < good.t1.toNat ∧ good.t1.toNat < 100 ∧ 60 < good.t2.toNat ∧ good.t2.toNat < 100) ∧
    ¬(60 < bad.t1.toNat ∧ bad.t1.toNat < 100 ∧ 60 < bad.t2.toNat ∧ bad.t2.toNat < 100) ∧
    ¬(60 < bad'.t1.toNat ∧ bad'.t1.toNat < 100 ∧ 60 < bad'.t2.toNat ∧ bad'.t2.toNat < 100) := by decide
theorem witness_ack_runs :
    let s := timed .ackA 0 (stimRun .high 0 ++ stimRun .low 1 ++ stimRun .high 501 ++ stimRun .low 1 ++ [0b001])
    s.ph = Phase.ackA.code ∧ s.tcnt = 0 ∧
    s.inputs = stimRun .high 0 ++ stimRun .low 1 ++ stimRun .high 501 ++ stimRun .low 1 ++ [0b001] := ⟨rfl, rfl, rfl⟩

/-! ### Witnesses: phases 4 and 5 -/

theorem witness_bitH_clauses :
    let s : State := timed .bitH 29 []
    (500 < (timed .bitH 501 []).tcnt.toNat) ∧ s.tcnt.toNat ≤ 500 ∧ classify s.tcnt = .bit 0 ∧ s.bitidx.val < 39 ∧
    classify (timed .bitH 79 []).tcnt = .bit 1 ∧ { s with bitidx := 39 }.bitidx = 39 ∧
    classify (timed .bitH 30 []).tcnt = .invalid ∧ classify (timed .bitH 80 []).tcnt = .invalid ∧
    classify (timed .bitH 500 []).tcnt = .invalid := by decide
theorem witness_bit_runs :
    let s := timed .bitL 0 (stimRun .low 500 ++ stimRun .high (21 + 1) ++ stimRun .low 1 ++ [])
    s.ph = Phase.bitL.code ∧ s.tcnt = 0 ∧
    s.inputs = stimRun .low 500 ++ stimRun .high (21 + 1) ++ stimRun .low 1 ++ [] ∧
    classify (BitVec.ofNat 10 21) = .bit 0 ∧ s.bitidx.val < 39 ∧ { s with bitidx := 39 }.bitidx = 39 ∧
    classify (BitVec.ofNat 10 0) = .invalid := by
  refine ⟨rfl, rfl, rfl, by decide, by decide, rfl, by decide⟩
theorem witness_field_cells :
    (frameCells 45 0 23 0 68).read? 0 = some 0 ∧ (frameCells 45 0 23 0 68).read? 7 = some 1 ∧
    (∀ j, j < 8 → ((frameCells 45 0 23 0 68).read? (0 + j)).isSome = true) ∧
    (4 < 8 ∧ Memory.read? [(0, 1), (1, 0)] (0 + 4) = none) := by decide
/-- The matching frame and the mismatching one of rule R86's worked example, cell by cell. -/
theorem witness_check_cells :
    let cell := fun j => ((frameCells 45 0 23 0 68).read? j).getD 0
    let cell' := fun j => ((frameCells 45 0 23 0 69).read? j).getD 0
    (∀ j, j < 40 → (sampled 45 0 23 0 68).raw.read? j = some (cell j)) ∧
    (∀ j, j < 40 → (sampled 45 0 23 0 69).raw.read? j = some (cell' j)) ∧
    ((pack [cell 0, cell 1, cell 2, cell 3, cell 4, cell 5, cell 6, cell 7]).toNat +
      (pack [cell 16, cell 17, cell 18, cell 19, cell 20, cell 21, cell 22, cell 23]).toNat) % 256 =
      (pack [cell 32, cell 33, cell 34, cell 35, cell 36, cell 37, cell 38, cell 39]).toNat ∧
    ((pack [cell' 0, cell' 1, cell' 2, cell' 3, cell' 4, cell' 5, cell' 6, cell' 7]).toNat +
      (pack [cell' 16, cell' 17, cell' 18, cell' 19, cell' 20, cell' 21, cell' 22, cell' 23]).toNat) % 256 ≠
      (pack [cell' 32, cell' 33, cell' 34, cell' 35, cell' 36, cell' 37, cell' 38, cell' 39]).toNat := by decide
theorem witness_fault : exec (.check false .low) (inPhase .check []) = .fault .rawCellUnwritten := by rfl
theorem witness_fraction_cells :
    (∀ j, j < 8 ∨ (16 ≤ j ∧ j < 24) ∨ (32 ≤ j ∧ j < 40) →
      (frameCells 45 7 23 9 68).read? j = (sampled 45 0 23 0 68).raw.read? j) ∧
    ∃ t, exec (.check false .low) (sampled 45 0 23 0 68) = .next t := by
  refine ⟨fun j hj => ?_, _, rfl⟩
  have h : ∀ j, j < 40 → j < 8 ∨ (16 ≤ j ∧ j < 24) ∨ 32 ≤ j →
      (frameCells 45 7 23 9 68).read? j = (sampled 45 0 23 0 68).raw.read? j := by decide
  exact h j (by omega) (by omega)

/-! ### Witnesses: frames -/

theorem witness_frame_idle_hold :
    (∃ t, exec (.nop .high) (inPhase .idle []) = .next t) ∧ (∃ t, exec (.read .low) (inPhase .idle []) = .next t) ∧
    (∃ t, exec (.hold false .low) { inPhase .hold [] with hcnt := 2 } = .next t) ∧
    (∃ t, exec (.hold true .low) { inPhase .hold [] with hcnt := 1 } = .next t) :=
  ⟨⟨_, rfl⟩, ⟨_, rfl⟩, ⟨_, rfl⟩, _, rfl⟩
theorem witness_frame_response :
    (∃ t, exec (.ackA false .low) (timed .ackA 500 []) = .next t ∧ t.done = false) ∧
    (∃ t, exec (.ackB false .high) (timed .ackB 501 []) = .next t ∧ t.done = true) ∧
    (∃ t, exec (.ackC false .low) (timed .ackC 80 []) = .next t ∧ t.done = false) ∧
    (∃ t, exec (.valid false .low) (timed .valid 0 []) = .next t ∧ t.done = true) :=
  ⟨⟨_, rfl, rfl⟩, ⟨_, rfl, rfl⟩, ⟨_, rfl, rfl⟩, _, rfl, rfl⟩
theorem witness_frame_sampling :
    (∃ t, exec (.bitL false .high) (timed .bitL 0 []) = .next t ∧ t.done = false) ∧
    (∃ t, exec (.bitH false .low) (timed .bitH 25 []) = .next t ∧ t.done = false ∧ t.ph ≠ Phase.check.code) ∧
    (∃ t, exec (.bitH false .low) (timed .bitH 45 []) = .next t) ∧ classify (timed .bitH 45 []).tcnt = .invalid :=
  ⟨⟨_, rfl, rfl⟩, ⟨_, rfl, rfl, by decide⟩, ⟨_, rfl⟩, by decide⟩
theorem witness_frame_check :
    ∃ t, exec (.check false .low) (sampled 45 0 23 0 69) = .next t ∧ t.res ≠ .ok := ⟨_, rfl, by decide⟩

/-! ### Witnesses: the machine as a whole -/

/-- A state in the middle of sampling, with 12 bits accepted, meets the invariant. -/
theorem witness_inv :
    { timed .bitH 45 [0b000] with t1 := 80, t2 := 80, hcnt := 2, bitidx := 12,
                                  raw := (frameCells 45 0 23 0 68).take 12 }.Inv := by
  constructor <;> decide
theorem witness_inv_step :
    ∃ t, step { timed .bitH 45 [0b000] with t1 := 80, t2 := 80, hcnt := 2, bitidx := 12,
                                            raw := (frameCells 45 0 23 0 68).take 12 } = .next t := ⟨_, rfl⟩
/-- The last bit of a frame: a state that meets the invariant, and whose next state is of phase `CHECK`. -/
theorem witness_enters_check :
    let s : State := { timed .bitH 25 [0b000] with hcnt := 2, bitidx := 39, raw := (frameCells 45 0 23 0 68).take 39 }
    s.Inv ∧ ∃ t, step s = .next t ∧ t.ph = Phase.check.code := by
  refine ⟨?_, _, rfl, rfl⟩
  constructor <;> decide
theorem witness_readings_change :
    ∃ t, exec (.check false .high) (sampled 45 0 23 0 68) = .next t ∧
      (t.hum ≠ (sampled 45 0 23 0 68).hum ∨ t.temp ≠ (sampled 45 0 23 0 68).temp) := ⟨_, rfl, .inl (by decide)⟩
/-- Each result of rule R90's table ends some transaction. -/
theorem witness_each_result :
    (∃ t, exec (.bitL false .low) (timed .bitL 501 []) = .next t ∧ t.done = true ∧ t.res = .timeout) ∧
    (∃ t, exec (.valid false .low) { timed .valid 0 [] with t1 := 100, t2 := 80 } = .next t ∧ t.done = true ∧
      t.res = .invalidHandshake) ∧
    (∃ t, exec (.bitH false .low) (timed .bitH 60 []) = .next t ∧ t.done = true ∧ t.res = .invalidBitTiming) ∧
    (∃ t, exec (.check false .low) (sampled 200 0 100 0 44) = .next t ∧ t.done = true ∧ t.res = .ok) ∧
    (∃ t, exec (.check false .low) (sampled 1 0 0 0 0) = .next t ∧ t.done = true ∧ t.res = .checksumMismatch) :=
  ⟨⟨_, rfl, rfl, rfl⟩, ⟨_, rfl, rfl, rfl⟩, ⟨_, rfl, rfl, rfl⟩, ⟨_, rfl, rfl, rfl⟩, _, rfl, rfl, rfl⟩
theorem witness_result_stable :
    ({ inPhase .idle [0b011] with res := .ok, hum := 45 }.inputAt 0).rst = false ∧
    ∃ t, step { inPhase .idle [0b011] with res := .ok, hum := 45 } = .next t ∧ t.done = false := ⟨by decide, _, rfl, rfl⟩
theorem witness_priority :
    ((timed .ackC 501 [0b100]).inputAt 0).rst = true ∧
    (waitLevel .ackC = some .high ∧ (timed .ackC 501 [0b000]).ph = Phase.ackC.code ∧
      ((timed .ackC 501 [0b000]).inputAt 0).rst = false ∧ 500 < (timed .ackC 501 [0b000]).tcnt.toNat) ∧
    ((timed .bitH 80 [0b000]).ph = Phase.bitH.code ∧ ((timed .bitH 80 [0b000]).inputAt 0).rst = false ∧
      ((timed .bitH 80 [0b000]).inputAt 0).lineIn = .low ∧ (timed .bitH 80 [0b000]).tcnt.toNat ≤ 500 ∧
      classify (timed .bitH 80 [0b000]).tcnt = .invalid) := by decide
theorem witness_mask_rises_and_falls :
    (∃ t, exec (.hold false .high) { inPhase .hold [] with hcnt := 2 } = .next t ∧
      ({ inPhase .hold [] with hcnt := 2 }.mask = false ∧ t.mask = true)) ∧
    (∃ t, exec (.bitH false .low) { timed .bitH 25 [] with bitidx := 39 } = .next t ∧
      ({ timed .bitH 25 [] with bitidx := 39 }.mask = true ∧ t.mask = false)) ∧
    (∃ t, exec (.ackA false .low) (timed .ackA 501 []) = .next t ∧ t.done = true) :=
  ⟨⟨_, rfl, rfl, rfl⟩, ⟨_, rfl, rfl, rfl⟩, _, rfl, rfl⟩
theorem witness_done_pulse :
    { inPhase .idle [0b011] with done := true, res := .ok }.Inv ∧
    (∃ t, step { inPhase .idle [0b011] with done := true, res := .ok } = .next t) ∧
    ∃ t, step (timed .ackA 501 [0b001]) = .next t ∧ t.done = true := by
  refine ⟨?_, ⟨_, rfl⟩, _, rfl, rfl⟩
  constructor <;> decide
/-- The premise of "no rule drives the line High" can hold only in a state no run reaches; the rule is then kept. -/
theorem witness_line_high :
    ∃ t, exec (.nop .low) { inPhase .idle [] with lout := .high } = .next t ∧ t.lout = .high := ⟨_, rfl, rfl⟩
/-- Two idle states that differ in every hidden register and agree on the ports and the inputs to come. -/
theorem witness_hidden_state :
    let u : State := { inPhase .idle [0b011, 0b001] with
      bitidx := 39, hcnt := 2, tcnt := 501, t1 := 61, t2 := 99, raw := frameCells 45 0 23 0 68 }
    (inPhase .idle [0b011, 0b001]).Inv ∧ u.Inv ∧ (inPhase .idle [0b011, 0b001]).ph = Phase.idle.code ∧
    u.ph = Phase.idle.code ∧ (inPhase .idle [0b011, 0b001]).outputs = u.outputs ∧
    (inPhase .idle [0b011, 0b001]).holdTicks = u.holdTicks ∧
    ∀ k, (inPhase .idle [0b011, 0b001]).inputAt k = u.inputAt k := by
  refine ⟨?_, ?_, rfl, rfl, rfl, rfl, fun k => State.inputAt_congr rfl rfl k⟩
  · constructor <;> decide
  · constructor <;> decide

/-- A line stuck High for as long as the bound asks, from the first `ACK_A` edge. -/
theorem witness_transaction_ends :
    let s := { timed .ackA 0 (List.replicate (3 + 24364) 0b001 ++ []) with hcnt := 2 }
    s.Inv ∧ s.ph ≠ Phase.idle.code ∧ ∀ k, k < longestRemainder s.holdTicks → (s.inputAt k).rst = false := by
  refine ⟨?_, by decide, fun k hk => ?_⟩
  · constructor <;> decide
  · rw [inputAt_run rfl hk]; decide
/-- `start` held at 1 from `IDLE` on. -/
theorem witness_whole_run_ends :
    let s := inPhase .idle (List.replicate (3 + 24364 + 1) 0b011 ++ [])
    s.Inv ∧ s.ph = Phase.idle.code ∧ (s.inputAt 0).start = true ∧
    ∀ k, k < longestRemainder s.holdTicks + 1 → (s.inputAt k).rst = false := by
  refine ⟨?_, rfl, ?_, fun k hk => ?_⟩
  · constructor <;> decide
  · rw [inputAt_run rfl (by decide)]; decide
  · rw [inputAt_run rfl hk]; decide
/-- `n = HOLD_TICKS + 4`, the last edge before the shortest transaction ends. -/
theorem witness_no_shorter :
    let s := inPhase .idle [0b011, 1, 1, 1, 0, 1, 0]
    s.ph = Phase.idle.code ∧ (s.inputAt 0).start = true ∧ (∀ k, k < 7 → (s.inputAt k).rst = false) ∧
    7 < s.holdTicks.val + 5 ∧ ∃ t, steps 7 s = .next t := ⟨rfl, by decide, by decide, by decide, _, rfl⟩
/-- The frame of 40 bits 0 with the shortest widths (rule R120) and the acknowledgment at its bounds. -/
theorem witness_whole_transaction_ok :
    let syms := List.replicate 40 (0, 21)
    let bits : List Bit := List.replicate 40 0
    let s := inPhase .idle (stimTransaction ⟨3, by decide⟩ 500 61 99 syms ++ [])
    s.ph = Phase.idle.code ∧ syms.length = 40 ∧ (∀ lw ∈ syms, lw.1 ≤ 500 ∧ lw.2 ≤ 500) ∧
    syms.map (fun lw => classify (BitVec.ofNat 10 lw.2)) = bits.map Symbol.bit ∧
    s.inputs = stimTransaction s.holdTicks 500 61 99 syms ++ [] ∧
    ((pack (bits.take 8)).toNat + (pack ((bits.drop 16).take 8)).toNat) % 256 =
      (pack ((bits.drop 32).take 8)).toNat := by
  refine ⟨rfl, rfl, by decide, by decide, rfl, by decide⟩
/-- The frame 0, 0, 0, 0, 1 fails its checksum. -/
theorem witness_whole_transaction_mismatch :
    let syms := List.replicate 39 (500, 29) ++ [(0, 79)]
    let bits : List Bit := List.replicate 39 0 ++ [1]
    let s := inPhase .idle (stimTransaction ⟨3, by decide⟩ 0 99 61 syms ++ [0b011])
    s.ph = Phase.idle.code ∧ syms.length = 40 ∧ (∀ lw ∈ syms, lw.1 ≤ 500 ∧ lw.2 ≤ 500) ∧
    syms.map (fun lw => classify (BitVec.ofNat 10 lw.2)) = bits.map Symbol.bit ∧
    s.inputs = stimTransaction s.holdTicks 0 99 61 syms ++ [0b011] ∧
    ((pack (bits.take 8)).toNat + (pack ((bits.drop 16).take 8)).toNat) % 256 ≠
      (pack ((bits.drop 32).take 8)).toNat := by
  refine ⟨rfl, rfl, by decide, by decide, rfl, by decide⟩

end Sys2Proof.Tests
end

section
/-! How a step uses up the inputs of its edge (rule R11), and that it runs what the decoder selects (rule R51). -/

namespace Sys2Proof.Machine

/-- Where the decoder reads an instruction, the step runs it with the inputs of the edge used up. -/
theorem step_of_decode {s : State} {i : Instr} (h : decode (selector s.ph (s.inputAt 0)) = .ok i) :
    step s = exec i s.consumeInput := by
  simp [step, h]

/-- With no word given, the free draw is sampled next. -/
theorem State.inputAt_zero_of_nil {s : State} (h : s.inputs = []) :
    s.inputAt 0 = Config.freeInput s.draws := by
  simp [State.inputAt, h]

/-- With no word given, one draw is made. -/
theorem State.consumeInput_of_nil {s : State} (h : s.inputs = []) :
    s.consumeInput = { s with draws := s.draws + 1 } := by
  simp [State.consumeInput, h]

/-- Settles O6, from the rule for the step and the rules for a given word (`cons`) and for a free draw (`nil`). -/
theorem stepRunsTheDecodedInstruction : Obligations.StepRunsTheDecodedInstruction :=
  ⟨fun _ _ => step_of_decode,
   fun s => s.afterInputs_one.symm,
   fun _ _ _ h => ⟨State.inputAt_zero_of_cons h, State.consumeInput_of_cons h⟩,
   fun _ h => ⟨State.inputAt_zero_of_nil h, State.consumeInput_of_nil h⟩⟩

end Sys2Proof.Machine
end

section
/-! Which register updates keep the invariant of rules R32, R35 and R40, and that a step is made of such updates. -/

namespace Sys2Proof.Machine

/-! ### Updates that stay in the phase -/

theorem State.Inv.clearDone {s : State} (h : s.Inv) : s.clearDone.Inv :=
  { h with done_in_idle := Bool.noConfusion }

theorem State.Inv.restartTimer {s : State} (h : s.Inv) : s.restartTimer.Inv :=
  { h with tcnt_bound := by simp }

theorem State.Inv.setHcnt {s : State} {n : Nat} (h : s.Inv) (hn : n ≤ s.holdTicks.val - 1) : (s.setHcnt n).Inv :=
  { h with hcnt_bound := hn }

theorem State.Inv.setT1 {s : State} {v : Ticks} (h : s.Inv) (hv : v.toNat ≤ 500) : (s.setT1 v).Inv :=
  { h with t1_bound := hv }

theorem State.Inv.setT2 {s : State} {v : Ticks} (h : s.Inv) (hv : v.toNat ≤ 500) : (s.setT2 v).Inv :=
  { h with t2_bound := hv }

theorem State.Inv.publish {s : State} (b c : Byte) (h : s.Inv) : (s.publish b c).Inv :=
  { h with }

/-- The timeout test comes before the count, so a tick is counted only up to 501 (rule R71). -/
theorem State.Inv.countTick {s : State} (h : s.Inv) (ht : s.tcnt.toNat ≤ 500) : s.countTick.Inv :=
  { h with tcnt_bound := (tick_toNat ht).trans_le (Nat.succ_le_succ ht) }

/-- The bit index moves only as far as the cells below it are written. -/
theorem State.Inv.setBitidx {s : State} {i : Fin 40} (h : s.Inv)
    (hw : ∀ k, k < i.val → (s.raw.read? k).isSome = true) : (s.setBitidx i).Inv :=
  { h with sampled_below := fun _ => hw }

/-- A stored bit empties no cell. -/
theorem State.storeBit_written {s : State} {k : Nat} (b : Bit)
    (h : k = s.bitidx.val ∨ (s.raw.read? k).isSome = true) : ((s.storeBit b).raw.read? k).isSome = true := by
  rw [State.storeBit_raw, Memory.read_write]
  split
  · rfl
  · exact h.resolve_left ‹_›

theorem State.Inv.storeBit {s : State} (b : Bit) (h : s.Inv) : (s.storeBit b).Inv :=
  { h with
    store_canonical := Memory.wf_write b s.bitidx.isLt h.store_canonical
    sampled_below := fun hp k hk => State.storeBit_written b (.inr (h.sampled_below hp k hk))
    sampled_all := fun hp k hk => State.storeBit_written b (.inr (h.sampled_all hp k hk)) }

/-- In `BIT_H` every cell up to the one just stored is written (rule R80). -/
theorem State.Inv.storeBit_upTo {s : State} (b : Bit) (h : s.Inv) (hp : s.ph = Phase.bitH.code) {k : Nat}
    (hk : k ≤ s.bitidx.val) : ((s.storeBit b).raw.read? k).isSome = true := by
  rcases Nat.eq_or_lt_of_le hk with rfl | hk
  · exact State.storeBit_written b (.inl rfl)
  · exact State.storeBit_written b (.inr (h.sampled_below (.inr hp) k hk))

/-! ### Updates that change the phase -/

theorem State.Inv.dir_input {s : State} (h : s.Inv) (hp : s.ph ≠ Phase.hold.code) : s.dir = .input := by
  cases hd : s.dir with
  | input => rfl
  | output => exact absurd (h.driven_in_hold.mp hd) hp

theorem State.Inv.ten_false {s : State} (h : s.Inv) (hp : ¬inTimedSpan s.ph) : s.ten = false :=
  Bool.eq_false_iff.mpr fun ht => hp (h.timed_in_span.mp ht)

theorem State.Inv.done_false {s : State} (h : s.Inv) (hp : s.ph ≠ Phase.idle.code) : s.done = false :=
  Bool.eq_false_iff.mpr fun hd => hp (h.done_in_idle hd)

/-- Every register but `RAW` takes its reset value, so only the form of `RAW` is carried over (rule R108). -/
theorem State.resetRegisters_inv {s : State} (h : s.raw.wf = true) : s.resetRegisters.Inv := by
  constructor <;> simp [h, Phase.code]

/-- Every phase but `HOLD` may end the transaction (rules R91, R92). -/
theorem State.Inv.finish {s : State} {p : Phase} (c : Result) (h : s.Inv) (hp : s.ph = p.code) (hn : p ≠ .hold) :
    (s.finish c).Inv :=
  { h with
    phase_legal := Phase.code_le .idle
    driven_in_hold := by simp [h.dir_input (by simpa [hp] using hn)]
    timed_in_span := by simp [inTimedSpan]
    mask_is_ten := rfl
    done_in_idle := fun _ => rfl
    sampled_below := by simp
    sampled_all := by simp }

/-- `READ` begins the hold (rule R68). -/
theorem State.Inv.beginHold {s : State} (h : s.Inv) (hp : s.ph = Phase.idle.code) (hd : s.done = false) :
    (s.driveLow.goto .hold).Inv :=
  { h with
    phase_legal := Phase.code_le .hold
    driven_in_hold := by simp
    timed_in_span := by simp [inTimedSpan, h.ten_false (by simp [hp, inTimedSpan])]
    lout_low := rfl
    done_in_idle := by simp [hd]
    sampled_below := by simp
    sampled_all := by simp }

/-- The last hold edge releases the line and starts the timed span (rule R69). -/
theorem State.Inv.release {s : State} (h : s.Inv) (hp : s.ph = Phase.hold.code) :
    (s.releaseLine.goto .ackA).Inv :=
  { h with
    phase_legal := Phase.code_le .ackA
    driven_in_hold := by simp
    timed_in_span := by simp [inTimedSpan]
    mask_is_ten := rfl
    done_in_idle := by simp [h.done_false (by simp [hp])]
    sampled_below := by simp
    sampled_all := by simp }

theorem State.Inv.dir_input_of_timed {s : State} (h : s.Inv) (hs : inTimedSpan s.ph) : s.dir = .input :=
  h.dir_input fun he => by simp [he, inTimedSpan] at hs

theorem State.Inv.done_false_of_timed {s : State} (h : s.Inv) (hs : inTimedSpan s.ph) : s.done = false :=
  h.done_false fun he => by simp [he, inTimedSpan] at hs

/-- Within the timed span the flags stay as they are; only the sampling phases ask for written cells. -/
theorem State.Inv.goto_timed {s : State} {q : Phase} (h : s.Inv) (hs : inTimedSpan s.ph) (hq : inTimedSpan q.code)
    (hw : q = .bitL ∨ q = .bitH → ∀ k, k < s.bitidx.val → (s.raw.read? k).isSome = true) : (s.goto q).Inv := by
  have hHold : q ≠ .hold := by rintro rfl; simp [inTimedSpan] at hq
  have hCheck : q ≠ .check := by rintro rfl; simp [inTimedSpan] at hq
  exact { h with
    phase_legal := Phase.code_le q
    driven_in_hold := by simp [h.dir_input_of_timed hs, hHold]
    timed_in_span := iff_of_true (h.timed_in_span.mpr hs) hq
    done_in_idle := by simp [h.done_false_of_timed hs]
    sampled_below := by simpa using hw
    sampled_all := by simp [hCheck] }

/-- After bit 39 the timed span ends in `CHECK`, with all cells written (rule R80). -/
theorem State.Inv.beginCheck {s : State} (h : s.Inv) (hs : inTimedSpan s.ph)
    (hw : ∀ k, k < Config.nbits → (s.raw.read? k).isSome = true) : (s.endSampling.goto .check).Inv :=
  { h with
    phase_legal := Phase.code_le .check
    driven_in_hold := by simp [h.dir_input_of_timed hs]
    timed_in_span := by simp [inTimedSpan]
    mask_is_ten := rfl
    done_in_idle := by simp [h.done_false_of_timed hs]
    sampled_below := by simp
    sampled_all := fun _ => hw }

/-! ### The step -/

/-- The rule of a phase keeps the invariant. -/
theorem Edge.keeps_inv {p : Phase} {w : InWord} {s t : State} (he : Edge (ruleOf p w) s t) (h : s.Inv)
    (hp : s.ph = p.code) : t.Inv := by
  have hc := h.clearDone
  have hs (hq : inTimedSpan p.code) : inTimedSpan s.ph := hp ▸ hq
  simp only [ruleOf] at he
  generalize w.lineIn = l at he
  cases p with
  | idle =>
    dsimp only at he
    split at he <;> cases he
    case isTrue.read => exact (hc.beginHold hp rfl).setHcnt (Nat.zero_le _)
    case isFalse.nop => exact hc
  | hold =>
    cases he with
    | holdRelease last => exact (hc.release hp).restartTimer
    | holdCount early => exact hc.setHcnt (by have := h.hcnt_bound; simp; omega)
  | ackA =>
    cases he with
    | ackATimeout late => exact hc.finish _ hp (by decide)
    | ackAExit inTime => exact hc.restartTimer.goto_timed (hs (by decide)) (by decide) (by simp)
    | ackACount inTime => exact hc.countTick inTime
  | ackB =>
    cases he with
    | ackBTimeout late => exact hc.finish _ hp (by decide)
    | ackBExit inTime => exact (hc.setT1 inTime).restartTimer.goto_timed (hs (by decide)) (by decide) (by simp)
    | ackBCount inTime => exact hc.countTick inTime
  | ackC =>
    cases he with
    | ackCTimeout late => exact hc.finish _ hp (by decide)
    | ackCExit inTime => exact (hc.setT2 inTime).restartTimer.goto_timed (hs (by decide)) (by decide) (by simp)
    | ackCCount inTime => exact hc.countTick inTime
  | valid =>
    cases he with
    | validPass pass1 pass2 =>
      have none_below (k : Nat) (hk : k < (0 : Fin 40).val) : (s.raw.read? k).isSome = true :=
        absurd hk (Nat.not_lt_zero k)
      exact (hc.setBitidx none_below).restartTimer.goto_timed (hs (by decide)) (by decide) fun _ => none_below
    | validFail bad => exact hc.finish _ hp (by decide)
  | bitL =>
    cases he with
    | bitLTimeout late => exact hc.finish _ hp (by decide)
    | bitLExit inTime =>
      exact hc.restartTimer.goto_timed (hs (by decide)) (by decide) fun _ => h.sampled_below (.inl hp)
    | bitLCount inTime => exact hc.countTick inTime
  | bitH =>
    have upTo (b : Bit) {k : Nat} (hk : k ≤ s.bitidx.val) := hc.storeBit_upTo b hp hk
    cases he with
    | bitHTimeout late => exact hc.finish _ hp (by decide)
    | bitHInvalid inTime bad => exact hc.finish _ hp (by decide)
    | @bitHLast _ _ b inTime good last =>
      have all (k : Nat) (hk : k < Config.nbits) : ((s.clearDone.storeBit b).raw.read? k).isSome = true :=
        upTo b (by rw [last]; exact Nat.le_of_lt_succ hk)
      exact ((hc.storeBit b).beginCheck (hs (by decide)) all).restartTimer
    | @bitHNext _ _ b inTime good more =>
      have below (k : Nat) (hk : k < (s.bitidx + 1).val) : ((s.clearDone.storeBit b).raw.read? k).isSome = true :=
        upTo b (by omega)
      exact ((hc.storeBit b).setBitidx below).restartTimer.goto_timed (hs (by decide)) (by decide) fun _ => below
    | bitHCount inTime => exact hc.countTick inTime
  | check =>
    cases he with
    | checkOk readH readT readP good => exact (hc.publish _ _).finish _ hp (by decide)
    | checkMismatch readH readT readP bad => exact hc.finish _ hp (by decide)

/-- Every edge keeps the invariant. -/
theorem State.Inv.of_step {s t : State} (h : s.Inv) (ht : step s = .next t) : t.Inv := by
  rcases step_next_cases ht with ⟨-, rfl⟩ | ⟨-, p, hp, he⟩
  · exact State.resetRegisters_inv h.consumeInput.store_canonical
  · exact he.keeps_inv h.consumeInput (by simpa using hp)

/-- Settles O41: reset leaves a state of the invariant, and so does the rule of each phase. -/
theorem stepKeepsTheInvariant : Obligations.StepKeepsTheInvariant :=
  fun _ _ => State.Inv.of_step

/-- A fresh reset state is what `RESET` makes of it, over an empty store. -/
theorem State.Fresh.inv {s : State} (h : s.Fresh) : s.Inv := by
  have hraw : s.raw = [] := congrArg State.raw h
  have hreset : s.resetRegisters = s := by
    conv_rhs => rw [show s = _ from h]
    simp [State.resetRegisters, hraw, State.reset]
  exact hreset ▸ State.resetRegisters_inv (by rw [hraw]; rfl)

/-- Settles O13: a fresh state is a reset state over an empty store. -/
theorem freshStatesMeetTheInvariant : Obligations.FreshStatesMeetTheInvariant :=
  ⟨rfl, fun _ => State.Fresh.inv⟩

/-! ### Reachable states -/

theorem Reachable.inv {s : State} (h : Reachable s) : s.Inv := by
  induction h with
  | fresh hf => exact hf.inv
  | edge _ ht ih => exact ih.of_step ht

/-- The six results have the codes 0 to 5 (rule R56). -/
theorem Result.code_le (r : Result) : r.code.toNat ≤ 5 := by cases r <;> decide

/-- Settles O43, from the bounds of the invariant and the types of `BITIDX` and `RES`. -/
theorem reachableStatesMeetTheBounds : Obligations.ReachableStatesMeetTheBounds := fun s hs =>
  have h := hs.inv
  ⟨h.phase_legal, Nat.le_of_lt_succ s.bitidx.isLt, h.hcnt_bound, h.tcnt_bound, h.t1_bound, h.t2_bound, s.res.code_le⟩

/-- In `IDLE` the line is released, the timer stopped and no mask requested (rule R35 (f)). -/
theorem State.Inv.flags_in_idle {s : State} (h : s.Inv) (hp : s.ph = Phase.idle.code) :
    s.dir = .input ∧ s.ten = false ∧ s.mask = false := by
  have hten : s.ten = false := h.ten_false (by simp [hp, inTimedSpan])
  exact ⟨h.dir_input (by simp [hp]), hten, h.mask_is_ten.trans hten⟩

/-- Settles O44, from the flag clauses of the invariant. -/
theorem reachableFlagsFollowThePhase : Obligations.ReachableFlagsFollowThePhase := fun _ hs =>
  have h := hs.inv
  ⟨h.driven_in_hold, h.timed_in_span, h.mask_is_ten, h.lout_low, h.done_in_idle, h.flags_in_idle⟩

end Sys2Proof.Machine
end

section
/-! What an edge does to the ports: the result ports change only at a completion or a reset, `DONE` marks a completion,
and the line is never driven High (rules R16, R25 to R30, R113). -/

namespace Sys2Proof.Machine

/-- With respect to the result, a rule is a reset, goes on without touching it, or completes: with a result that
publishes nothing, or as a `CHECK` that publishes the bytes it packed (rules R25 to R28, R87, R92). -/
theorem Edge.result_cases {i : Instr} {s t : State} (h : Edge i s t) :
    (∃ ph st l, i = .reset ph st l ∧ t = s.resetRegisters) ∨
    (t.done = false ∧ t.res = s.res ∧ t.hum = s.hum ∧ t.temp = s.temp) ∨
    (∃ code, code ≠ .none ∧ t = s.clearDone.finish code) ∨
    (∃ st l hb tb pb, i = .check st l ∧ s.raw.readByte 0 = some hb ∧ s.raw.readByte 16 = some tb ∧
      s.raw.readByte 32 = some pb ∧ checksumOk hb tb pb = true ∧ t = (s.clearDone.publish hb tb).finish .ok) := by
  cases h with
  | reset => exact .inl ⟨_, _, _, rfl, rfl⟩
  | checkOk readH readT readP good =>
    exact .inr (.inr (.inr ⟨_, _, _, _, _, rfl, readH, readT, readP, good, rfl⟩))
  | ackATimeout | ackBTimeout | ackCTimeout | bitLTimeout | bitHTimeout | validFail | bitHInvalid | checkMismatch =>
    exact .inr (.inr (.inl ⟨_, Result.noConfusion, rfl⟩))
  | _ => exact .inr (.inl ⟨rfl, rfl, rfl, rfl⟩)

/-- No rule but a reset selects `RESET` (rule R51). -/
theorem ruleOf_ne_reset (p : Phase) (w : InWord) (ph : PhaseWord) (st : Bool) (l : Level) :
    ruleOf p w ≠ .reset ph st l := by
  cases p with
  | idle => simp only [ruleOf]; split <;> exact Instr.noConfusion
  | _ => exact Instr.noConfusion

/-- The checksum in bytes (rule R84). -/
theorem checksumOk_add {hb tb pb : Byte} (h : checksumOk hb tb pb = true) : hb + tb = pb :=
  BitVec.eq_of_toNat_eq ((BitVec.toNat_add hb tb).trans ((checksumOk_iff hb tb pb).mp h))

/-- Settles O46: of the four things a rule can do to the result, only a reset and a `CHECK` that publishes change a
reading. -/
theorem readingsChangeOnlyOnSuccessOrReset : Obligations.ReadingsChangeOnlyOnSuccessOrReset := by
  intro i s t h hne
  rcases (edge_of_exec h).result_cases with
    ⟨ph, st, l, hi, -⟩ | ⟨-, -, hh, ht⟩ | ⟨code, -, rfl⟩ | ⟨st, l, hb, tb, pb, hi, hh, ht, hp, hsum, rfl⟩
  · exact .inl ⟨ph, st, l, hi⟩
  · exact absurd hne (by simp [hh, ht])
  · exact absurd hne (by simp)
  · exact .inr ⟨⟨st, l, hi⟩, rfl, rfl, hh, ht, hp.trans (congrArg some (checksumOk_add hsum).symm)⟩

/-- Settles O49: without a reset, a rule that leaves `DONE` at 0 goes on and keeps the result. -/
theorem resultPortsAreStableBetweenCompletions : Obligations.ResultPortsAreStableBetweenCompletions := by
  intro s t h hr hd
  rcases step_next_cases h with ⟨hrst, -⟩ | ⟨-, p, -, he⟩
  · simp [hr] at hrst
  · rcases he.result_cases with
      ⟨_, _, _, hi, -⟩ | ⟨-, hres, hh, ht⟩ | ⟨_, -, rfl⟩ | ⟨_, _, _, _, _, -, -, -, -, -, rfl⟩
    · exact absurd hi (ruleOf_ne_reset _ _ _ _ _)
    · simp [State.outputs, hres, hh, ht]
    · cases hd
    · cases hd

/-- In `IDLE` an edge ends no transaction (rules R67, R68, R108). -/
theorem done_false_of_step_in_idle {s t : State} (hp : s.ph = Phase.idle.code) (h : step s = .next t) :
    t.done = false := by
  rcases step_next_cases h with ⟨-, rfl⟩ | ⟨-, p, hp', he⟩
  · rfl
  · obtain rfl : p = .idle := by simpa [hp] using hp'.symm
    simp only [ruleOf] at he
    split at he <;> cases he <;> rfl

/-- An edge that leaves `DONE = 1` is no reset edge, and leaves the engine in `IDLE` with a result (rules R28, R92). -/
theorem completion_of_step {s t : State} (h : step s = .next t) (hd : t.done = true) :
    (s.inputAt 0).rst = false ∧ t.ph = Phase.idle.code ∧ t.res ≠ .none := by
  rcases step_next_cases h with ⟨-, rfl⟩ | ⟨hr, p, -, he⟩
  · cases hd
  · rcases he.result_cases with
      ⟨_, _, _, -, rfl⟩ | ⟨hf, -⟩ | ⟨code, hcode, rfl⟩ | ⟨_, _, _, _, _, -, -, -, -, -, rfl⟩
    · cases hd
    · simp [hf] at hd
    · exact ⟨hr, rfl, hcode⟩
    · exact ⟨hr, rfl, Result.noConfusion⟩

/-- Settles O52: the tick after a completion is spent in `IDLE`, where no edge completes. -/
theorem donePulseLastsOneTick : Obligations.DonePulseLastsOneTick := by
  refine ⟨fun s t hs hd h => done_false_of_step_in_idle (hs.done_in_idle hd) h, fun s t h hd => ?_, fun s t h hd => ?_⟩
  · obtain ⟨-, hp, hres⟩ := completion_of_step h hd
    exact ⟨by simp [State.outputs, hp], hres⟩
  · exact (completion_of_step h hd).1

/-- A rule leaves the driven level or makes it Low (rules R30, R68, R108). -/
theorem Edge.lout_cases {i : Instr} {s t : State} (h : Edge i s t) : t.lout = .low ∨ t.lout = s.lout := by
  cases h with
  | reset | read => exact .inl rfl
  | _ => exact .inr rfl

/-- Settles O53: no rule raises the driven level, and it is Low in the invariant. -/
theorem lineIsNeverDrivenHigh : Obligations.LineIsNeverDrivenHigh := by
  refine ⟨fun i s t h hhigh => ?_, fun s hs => hs.inv.lout_low⟩
  rcases (edge_of_exec h).lout_cases with hl | hl
  · simp [hl] at hhigh
  · exact hl ▸ hhigh

theorem directionBit_eq_one (d : Direction) : directionBit d = 1 ↔ d = .output := by cases d <;> decide

theorem Level.bit_eq_one (l : Level) : l.bit = 1 ↔ l = .high := by cases l <;> decide

/-- Settles O54: each port is its register, or a one-bit code of it. -/
theorem outputsAreFunctionsOfRegisters : Obligations.OutputsAreFunctionsOfRegisters := fun s =>
  ⟨directionBit_eq_one s.dir, Level.bit_eq_one s.lout, decide_eq_true_iff, rfl, rfl, rfl, rfl, rfl, rfl⟩

end Sys2Proof.Machine
end

section
/-! Rule R33: hidden registers left by an earlier transaction never reach the ports. Two runs are kept in a relation that
asks for equal ports and, phase by phase, for equal values of the registers that are still to be read. -/

namespace Sys2Proof.Machine

/-! ### The ports after each update -/

@[simp] theorem State.outputs_clearDone (s : State) : s.clearDone.outputs = { s.outputs with done := false } := rfl
@[simp] theorem State.outputs_restartTimer (s : State) : s.restartTimer.outputs = s.outputs := rfl
@[simp] theorem State.outputs_countTick (s : State) : s.countTick.outputs = s.outputs := rfl
@[simp] theorem State.outputs_setHcnt (n : Nat) (s : State) : (s.setHcnt n).outputs = s.outputs := rfl
@[simp] theorem State.outputs_setT1 (v : Ticks) (s : State) : (s.setT1 v).outputs = s.outputs := rfl
@[simp] theorem State.outputs_setT2 (v : Ticks) (s : State) : (s.setT2 v).outputs = s.outputs := rfl
@[simp] theorem State.outputs_setBitidx (i : Fin 40) (s : State) : (s.setBitidx i).outputs = s.outputs := rfl
@[simp] theorem State.outputs_storeBit (b : Bit) (s : State) : (s.storeBit b).outputs = s.outputs := rfl
@[simp] theorem State.outputs_goto (p : Phase) (s : State) :
    (s.goto p).outputs = { s.outputs with busy := decide (p.code ≠ Phase.idle.code) } := rfl
@[simp] theorem State.outputs_driveLow (s : State) :
    s.driveLow.outputs = { s.outputs with lineOe := 1, lineOut := 0 } := rfl
@[simp] theorem State.outputs_releaseLine (s : State) :
    s.releaseLine.outputs = { s.outputs with lineOe := 0, tmrRun := true, maskReq := true } := rfl
@[simp] theorem State.outputs_endSampling (s : State) :
    s.endSampling.outputs = { s.outputs with tmrRun := false, maskReq := false } := rfl
@[simp] theorem State.outputs_publish (h t : Byte) (s : State) :
    (s.publish h t).outputs = { s.outputs with hum := h, temp := t } := rfl
@[simp] theorem State.outputs_finish (c : Result) (s : State) :
    (s.finish c).outputs =
      { s.outputs with busy := false, done := true, res := c.code, maskReq := false, tmrRun := false } := rfl
@[simp] theorem State.outputs_consumeInput (s : State) : s.consumeInput.outputs = s.outputs := by
  simp [State.outputs]

/-! ### The relation -/

/-- The hidden registers that a run in phase `p` still reads before it writes them are equal (rule R33). -/
def SameLive : Phase → State → State → Prop
  | .idle, _, _ => True
  | .hold, s, u => s.hcnt = u.hcnt
  | .ackA, s, u | .ackB, s, u => s.tcnt = u.tcnt
  | .ackC, s, u => s.tcnt = u.tcnt ∧ s.t1 = u.t1
  | .valid, s, u => s.t1 = u.t1 ∧ s.t2 = u.t2
  | .bitL, s, u | .bitH, s, u =>
    s.tcnt = u.tcnt ∧ s.bitidx = u.bitidx ∧ ∀ k, k < s.bitidx.val → s.raw.read? k = u.raw.read? k
  | .check, s, u => ∀ k, k < Config.nbits → s.raw.read? k = u.raw.read? k

/-- Two states of one phase show the same ports and agree on the live registers. -/
structure SameRun (p : Phase) (s u : State) : Prop where
  left_phase : s.ph = p.code
  right_phase : u.ph = p.code
  ports : s.outputs = u.outputs
  live : SameLive p s u

theorem SameLive.consumeInput {p : Phase} {s u : State} (h : SameLive p s u) :
    SameLive p s.consumeInput u.consumeInput := by
  cases p with
  | idle => trivial
  | _ => simpa [SameLive] using h

theorem SameRun.consumeInput {p : Phase} {s u : State} (h : SameRun p s u) :
    SameRun p s.consumeInput u.consumeInput :=
  ⟨by simpa using h.left_phase, by simpa using h.right_phase, by simpa using h.ports, h.live.consumeInput⟩

/-- A finished transaction leaves no live register. -/
theorem SameRun.finish {s u : State} (c : Result) (h : s.outputs = u.outputs) :
    SameRun .idle (s.clearDone.finish c) (u.clearDone.finish c) :=
  ⟨rfl, rfl, by simp [h], trivial⟩

/-- Cells that agree below the bit index agree up to it once the same bit is stored there. -/
theorem read_storeBit_eq {s u : State} (b : Bit) (hi : s.bitidx = u.bitidx)
    (hc : ∀ k, k < s.bitidx.val → s.raw.read? k = u.raw.read? k) {k : Nat} (hk : k ≤ s.bitidx.val) :
    (s.storeBit b).raw.read? k = (u.storeBit b).raw.read? k := by
  simp only [State.storeBit_raw, Memory.read_write, ← hi]
  split
  · rfl
  · exact hc k (by omega)

/-! ### The simulation -/

/-- A rule takes related states to related states. -/
theorem Edge.same_run {p : Phase} {w : InWord} {s u s' : State} (he : Edge (ruleOf p w) s s')
    (hticks : s.holdTicks = u.holdTicks) (hr : SameRun p s u) :
    ∃ q u', Edge (ruleOf p w) u u' ∧ SameRun q s' u' := by
  obtain ⟨hs, hu, hports, hlive⟩ := hr
  simp only [ruleOf] at he ⊢
  generalize w.lineIn = l at he ⊢
  cases p with
  | idle =>
    dsimp only at he ⊢
    split at he <;> cases he
    case isTrue.read hst =>
      rw [if_pos hst]
      exact ⟨.hold, _, .read, rfl, rfl, by simp [hports], rfl⟩
    case isFalse.nop hst =>
      rw [if_neg hst]
      exact ⟨.idle, _, .nop, hs, hu, by simp [hports], trivial⟩
  | hold =>
    have hcnt : s.hcnt = u.hcnt := hlive
    cases he with
    | holdRelease last =>
      exact ⟨.ackA, _, .holdRelease (hcnt ▸ hticks ▸ last), rfl, rfl, by simp [hports], rfl⟩
    | holdCount early =>
      exact ⟨.hold, _, .holdCount (hcnt ▸ hticks ▸ early), hs, hu, by simp [hports], congrArg (· + 1) hcnt⟩
  | ackA =>
    have htcnt : s.tcnt = u.tcnt := hlive
    cases he with
    | ackATimeout late => exact ⟨_, _, .ackATimeout (htcnt ▸ late), .finish _ hports⟩
    | ackAExit inTime => exact ⟨.ackB, _, .ackAExit (htcnt ▸ inTime), rfl, rfl, by simp [hports], rfl⟩
    | ackACount inTime =>
      exact ⟨.ackA, _, .ackACount (htcnt ▸ inTime), hs, hu, by simp [hports], congrArg (· + 1) htcnt⟩
  | ackB =>
    have htcnt : s.tcnt = u.tcnt := hlive
    cases he with
    | ackBTimeout late => exact ⟨_, _, .ackBTimeout (htcnt ▸ late), .finish _ hports⟩
    | ackBExit inTime => exact ⟨.ackC, _, .ackBExit (htcnt ▸ inTime), rfl, rfl, by simp [hports], rfl, htcnt⟩
    | ackBCount inTime =>
      exact ⟨.ackB, _, .ackBCount (htcnt ▸ inTime), hs, hu, by simp [hports], congrArg (· + 1) htcnt⟩
  | ackC =>
    obtain ⟨htcnt, ht1⟩ : s.tcnt = u.tcnt ∧ s.t1 = u.t1 := hlive
    cases he with
    | ackCTimeout late => exact ⟨_, _, .ackCTimeout (htcnt ▸ late), .finish _ hports⟩
    | ackCExit inTime => exact ⟨.valid, _, .ackCExit (htcnt ▸ inTime), rfl, rfl, by simp [hports], ht1, htcnt⟩
    | ackCCount inTime =>
      exact ⟨.ackC, _, .ackCCount (htcnt ▸ inTime), hs, hu, by simp [hports], congrArg (· + 1) htcnt, ht1⟩
  | valid =>
    obtain ⟨ht1, ht2⟩ : s.t1 = u.t1 ∧ s.t2 = u.t2 := hlive
    cases he with
    | validPass pass1 pass2 =>
      exact ⟨.bitL, _, .validPass (ht1 ▸ pass1) (ht2 ▸ pass2), rfl, rfl, by simp [hports], rfl, rfl,
        fun k hk => absurd hk (Nat.not_lt_zero k)⟩
    | validFail bad => exact ⟨_, _, .validFail (ht1 ▸ ht2 ▸ bad), .finish _ hports⟩
  | bitL =>
    obtain ⟨htcnt, hidx, hcells⟩ := hlive
    cases he with
    | bitLTimeout late => exact ⟨_, _, .bitLTimeout (htcnt ▸ late), .finish _ hports⟩
    | bitLExit inTime =>
      exact ⟨.bitH, _, .bitLExit (htcnt ▸ inTime), rfl, rfl, by simp [hports], rfl, hidx, hcells⟩
    | bitLCount inTime =>
      exact ⟨.bitL, _, .bitLCount (htcnt ▸ inTime), hs, hu, by simp [hports], congrArg (· + 1) htcnt, hidx, hcells⟩
  | bitH =>
    obtain ⟨htcnt, hidx, hcells⟩ := hlive
    have upTo (b : Bit) {k : Nat} (hk : k ≤ s.bitidx.val) :=
      read_storeBit_eq (s := s.clearDone) (u := u.clearDone) b hidx hcells hk
    cases he with
    | bitHTimeout late => exact ⟨_, _, .bitHTimeout (htcnt ▸ late), .finish _ hports⟩
    | bitHInvalid inTime bad =>
      exact ⟨_, _, .bitHInvalid (htcnt ▸ inTime) (htcnt ▸ bad), .finish _ hports⟩
    | bitHLast inTime good last =>
      exact ⟨.check, _, .bitHLast (htcnt ▸ inTime) (htcnt ▸ good) (hidx ▸ last), rfl, rfl, by simp [hports],
        fun k hk => upTo _ (by rw [last]; exact Nat.le_of_lt_succ hk)⟩
    | bitHNext inTime good more =>
      exact ⟨.bitL, _, .bitHNext (htcnt ▸ inTime) (htcnt ▸ good) (hidx ▸ more), rfl, rfl, by simp [hports], rfl,
        congrArg (· + 1) hidx, fun k hk => upTo _ (by simp at hk; omega)⟩
    | bitHCount inTime =>
      exact ⟨.bitH, _, .bitHCount (htcnt ▸ inTime), hs, hu, by simp [hports], congrArg (· + 1) htcnt, hidx, hcells⟩
  | check =>
    have hbyte (base : Nat) (hb : base + 8 ≤ Config.nbits) : s.raw.readByte base = u.raw.readByte base :=
      Memory.readByte_congr fun k _ hk => hlive k (Nat.lt_of_lt_of_le hk hb)
    have hH := hbyte 0 (by decide)
    have hT := hbyte 16 (by decide)
    have hP := hbyte 32 (by decide)
    cases he with
    | checkOk readH readT readP good =>
      exact ⟨.idle, _, .checkOk (hH ▸ readH) (hT ▸ readT) (hP ▸ readP) good, rfl, rfl, by simp [hports], trivial⟩
    | checkMismatch readH readT readP bad =>
      exact ⟨_, _, .checkMismatch (hH ▸ readH) (hT ▸ readT) (hP ▸ readP) bad, .finish _ hports⟩

/-- An edge on the same inputs takes related states to related states. -/
theorem SameRun.of_step {p : Phase} {s u s' : State} (h : SameRun p s u) (hticks : s.holdTicks = u.holdTicks)
    (hin : s.inputAt 0 = u.inputAt 0) (hstep : step s = .next s') :
    ∃ q u', step u = .next u' ∧ SameRun q s' u' := by
  rcases step_next_cases hstep with ⟨hrst, rfl⟩ | ⟨hrst, q, hq, he⟩
  · exact ⟨.idle, _, step_reset (hin ▸ hrst), rfl, rfl, rfl, trivial⟩
  · obtain rfl : p = q := by simpa [h.left_phase] using hq
    obtain ⟨q, u', hu', hr⟩ := he.same_run (by simpa using hticks) h.consumeInput
    rw [hin] at hrst hu'
    exact ⟨q, u', step_of_edge h.right_phase hrst hu', hr⟩

/-- No rule writes the parameter (rule R110). -/
theorem Edge.holdTicks_eq {i : Instr} {s t : State} (h : Edge i s t) : t.holdTicks = s.holdTicks := by
  cases h <;> rfl

theorem holdTicks_of_step {s t : State} (h : step s = .next t) : t.holdTicks = s.holdTicks := by
  rcases step_next_cases h with ⟨-, rfl⟩ | ⟨-, p, -, he⟩
  · simp
  · simpa using he.holdTicks_eq

/-! ### Progress -/

/-- In the invariant the rule of the phase answers a next state: the cells `CHECK` reads are written (rules R40,
R106). -/
theorem State.Inv.exec_next {s : State} {p : Phase} (h : s.Inv) (hp : s.ph = p.code) (w : InWord) :
    ∃ t, exec (ruleOf p w) s = .next t := by
  cases p with
  | idle => simp only [ruleOf]; split <;> exact ⟨_, rfl⟩
  | check =>
    have hbyte (base : Nat) (hb : base + 8 ≤ Config.nbits) : s.raw.readByte base ≠ none :=
      Option.isSome_iff_ne_none.mp <| (s.raw.readByte_isSome base).mpr fun k _ hk =>
        h.sampled_all hp k (Nat.lt_of_lt_of_le hk hb)
    rcases execCheck_cases w.start w.lineIn s with ⟨_, _, _, -, -, -, he⟩ | ⟨hH | hT | hP, -⟩
    · exact ⟨_, he⟩
    · exact absurd hH (hbyte 0 (by decide))
    · exact absurd hT (hbyte 16 (by decide))
    · exact absurd hP (hbyte 32 (by decide))
  | _ => exact ⟨_, rfl⟩

/-- From every state of the invariant there is a next state, whatever the inputs (rule R106). -/
theorem State.Inv.step_next {s : State} (h : s.Inv) : ∃ t, step s = .next t := by
  cases hrst : (s.inputAt 0).rst with
  | true => exact ⟨_, step_reset hrst⟩
  | false =>
    obtain ⟨p, hp⟩ := Phase.exists_code h.phase_legal
    rw [step_phase hp hrst]
    exact h.consumeInput.exec_next (by simpa using hp) _

/-- Related states that meet the same inputs show the same ports after every number of edges. -/
theorem SameRun.outputs_of_steps {p : Phase} {s u : State} (h : SameRun p s u) (hs : s.Inv)
    (hticks : s.holdTicks = u.holdTicks) (hin : ∀ k, s.inputAt k = u.inputAt k) (n : Nat) :
    ∃ s' u', steps n s = .next s' ∧ steps n u = .next u' ∧ s'.outputs = u'.outputs := by
  induction n generalizing p s u with
  | zero => exact ⟨s, u, rfl, rfl, h.ports⟩
  | succ n ih =>
    obtain ⟨s₁, hs₁⟩ := hs.step_next
    obtain ⟨q, u₁, hu₁, hr⟩ := h.of_step hticks (hin 0) hs₁
    rw [steps_succ_of_next hs₁, steps_succ_of_next hu₁]
    refine ih hr (hs.of_step hs₁) ?_ fun k => ?_
    · rw [holdTicks_of_step hs₁, holdTicks_of_step hu₁, hticks]
    · rw [inputAt_of_step hs₁, inputAt_of_step hu₁, hin]

/-- Settles O56: idle states have no live hidden register, so the simulation starts from the ports alone. -/
theorem hiddenStateOfIdleDoesNotReachThePorts : Obligations.HiddenStateOfIdleDoesNotReachThePorts :=
  fun _ _ hs _ hsp hup hports hticks hin =>
    SameRun.outputs_of_steps (p := .idle) ⟨hsp, hup, hports, trivial⟩ hs hticks hin

end Sys2Proof.Machine
end

section
/-! The sample store and the line as the rules look at them: a field is its eight cells, `CHECK` depends on its 24 cells
and faults only where one holds no value, no reachable run gets there, and only an open wait looks at the line (rules R39,
R40, R42, R45, R106). -/

namespace Sys2Proof.Machine

/-! ### A field of the frame -/

/-- A field has no value exactly when one of its eight cells has none (rules R39, R40). -/
theorem Memory.readByte_eq_none_iff (m : Memory) (base : Nat) :
    m.readByte base = none ↔ ∃ j, j < 8 ∧ m.read? (base + j) = none := by
  rw [← not_iff_not, ← ne_eq, ← Option.isSome_iff_ne_none, Memory.readByte_isSome]
  push Not
  constructor
  · exact fun h j hj => Option.isSome_iff_ne_none.mp (h (base + j) (by omega) (by omega))
  · intro h k hk hk'
    obtain ⟨j, rfl⟩ := Nat.exists_eq_add_of_le hk
    exact Option.isSome_iff_ne_none.mpr (h j (by omega))

/-- Settles O31: the eight cells are read in index order, and the read fails with the first that holds no value. -/
theorem fieldIsThePackingOfItsCells : Obligations.FieldIsThePackingOfItsCells := by
  refine fun m base => ⟨?_, (m.readByte_eq_none_iff base).mpr⟩
  intro b0 b1 b2 b3 b4 b5 b6 b7 h0 h1 h2 h3 h4 h5 h6 h7
  simp [Memory.readByte, Memory.readBits, Nat.add_assoc, h0, h1, h2, h3, h4, h5, h6, h7]

/-! ### The cells `CHECK` reads -/

/-- `CHECK` faults exactly when one of its three fields has no value (rule R40). -/
theorem exec_check_fault_iff (st : Bool) (l : Level) (s : State) :
    exec (.check st l) s = .fault .rawCellUnwritten ↔
      s.raw.readByte 0 = none ∨ s.raw.readByte 16 = none ∨ s.raw.readByte 32 = none := by
  rcases execCheck_cases st l s with ⟨_, _, _, hH, hT, hP, he⟩ | ⟨hnone, he⟩
  · simp [he, hH, hT, hP]
  · simp [he, hnone]

/-- The three fields hold the cells 0 to 7, 16 to 23 and 32 to 39 (rule R59). -/
theorem Memory.field_eq_none_iff (m : Memory) :
    (m.readByte 0 = none ∨ m.readByte 16 = none ∨ m.readByte 32 = none) ↔
      ∃ j, (j < 8 ∨ (16 ≤ j ∧ j < 24) ∨ (32 ≤ j ∧ j < 40)) ∧ m.read? j = none := by
  simp only [Memory.readByte_eq_none_iff]
  constructor
  · rintro (⟨j, hj, hnone⟩ | ⟨j, hj, hnone⟩ | ⟨j, hj, hnone⟩) <;> exact ⟨_, by omega, hnone⟩
  · rintro ⟨j, hj | ⟨hlo, hhi⟩ | ⟨hlo, hhi⟩, hnone⟩
    · exact .inl ⟨j, hj, by rwa [Nat.zero_add]⟩
    · exact .inr (.inl ⟨j - 16, by omega, by rwa [Nat.add_sub_cancel' hlo]⟩)
    · exact .inr (.inr ⟨j - 32, by omega, by rwa [Nat.add_sub_cancel' hlo]⟩)

/-- Settles O34: the fault of `CHECK` in terms of its fields, and a field in terms of its cells. -/
theorem onlyUnwrittenCellsFault : Obligations.OnlyUnwrittenCellsFault := by
  refine ⟨fun st l s => (exec_check_fault_iff st l s).trans s.raw.field_eq_none_iff, fun i s r h => ?_⟩
  obtain ⟨st, l, hi, -⟩ := exec_fault h
  exact ⟨st, l, hi⟩

/-- Settles O35: a store that agrees on the 24 cells gives the same three bytes, and `CHECK` looks at nothing else of it
and writes none of it. -/
theorem fractionCellsDoNotMatter : Obligations.FractionCellsDoNotMatter := by
  intro st l s t m hcells h
  have hH : m.readByte 0 = s.raw.readByte 0 := Memory.readByte_congr fun k _ _ => hcells k (by omega)
  have hT : m.readByte 16 = s.raw.readByte 16 := Memory.readByte_congr fun k _ _ => hcells k (by omega)
  have hP : m.readByte 32 = s.raw.readByte 32 := Memory.readByte_congr fun k _ _ => hcells k (by omega)
  cases edge_of_exec h with
  | checkOk readH readT readP good =>
    exact exec_of_edge (.checkOk (s := { s with raw := m }) (hH.trans readH) (hT.trans readT) (hP.trans readP) good)
  | checkMismatch readH readT readP bad =>
    exact exec_of_edge
      (.checkMismatch (s := { s with raw := m }) (hH.trans readH) (hT.trans readT) (hP.trans readP) bad)

/-! ### Reachable runs -/

/-- From a state of the invariant every number of edges runs (rule R106). -/
theorem State.Inv.safeRun {s : State} (h : s.Inv) (n : Nat) : SafeRun n s := by
  induction n generalizing s with
  | zero => exact ⟨s, rfl⟩
  | succ n ih =>
    obtain ⟨t, ht⟩ := h.step_next
    rw [SafeRun, steps_succ_of_next ht]
    exact ih (h.of_step ht)

/-- Settles O45: the invariant is kept into `CHECK`, holds in every reachable state, and lets every run go on. -/
theorem reachableRunsNeverStop : Obligations.ReachableRunsNeverStop :=
  ⟨fun _ _ hs ht hcheck j hj => Option.isSome_iff_exists.mp ((hs.of_step ht).sampled_all hcheck j hj),
   fun _ n hs => hs.inv.safeRun n⟩

/-! ### The line level -/

/-- Outside the waits, and in a wait whose timeout test fires, the rule of a phase does not look at the line (rules R42,
R71). -/
theorem exec_ruleOf_line_irrelevant {p : Phase} {w w' : InWord} {s : State} (hstart : w.start = w'.start)
    (h : waitLevel p = none ∨ 500 < s.tcnt.toNat) : exec (ruleOf p w) s = exec (ruleOf p w') s := by
  cases hw : waitLevel p with
  | some level =>
    have hlate : Config.tmo < s.clearDone.tcnt.toNat := h.resolve_left (by simp [hw])
    rw [exec_wait hw, exec_wait hw, waitWhile_timeout hlate, waitWhile_timeout hlate]
  | none =>
    cases p with
    | idle => simp only [ruleOf, hstart]; split <;> rfl
    | hold | valid | check => rfl
    | ackA | ackB | ackC | bitL | bitH => cases hw

/-- A reserved phase without reset is refused (rule R55, log entry 6). -/
theorem step_reserved {s : State} (hr : (s.inputAt 0).rst = false) (hp : 8 < s.ph.toNat) :
    step s = .refused (.noStepRule (.reservedPhase s.ph)) := by
  simp [step, decode_reserved hr hp]

/-- Settles O18: a reset looks at no other input, a reserved phase is refused, and the rule of a phase does not look at
the line in the cases listed. -/
theorem lineIsLookedAtOnlyByOpenWaits : Obligations.LineIsLookedAtOnlyByOpenWaits := by
  intro s w w' rest hrst hstart h
  cases hr : w.rst with
  | true =>
    rw [step_reset (s := { s with inputs := w :: rest }) hr,
      step_reset (s := { s with inputs := w' :: rest }) (hrst ▸ hr)]
    rfl
  | false =>
    have hr' : w'.rst = false := hrst ▸ hr
    by_cases hlegal : s.ph.toNat ≤ 8
    · obtain ⟨p, hp⟩ := Phase.exists_code hlegal
      rw [step_phase (s := { s with inputs := w :: rest }) hp hr,
        step_phase (s := { s with inputs := w' :: rest }) hp hr']
      refine exec_ruleOf_line_irrelevant hstart ?_
      rw [hr, hp] at h
      simp only [Phase.code_inj] at h
      rcases h with h | rfl | rfl | rfl | rfl | hlate
      · cases h
      · exact .inl rfl
      · exact .inl rfl
      · exact .inl rfl
      · exact .inl rfl
      · exact .inr hlate
    · have hres := Nat.lt_of_not_le hlegal
      rw [step_reserved (s := { s with inputs := w :: rest }) hr hres,
        step_reserved (s := { s with inputs := w' :: rest }) hr' hres]

end Sys2Proof.Machine
end

section
/-! The encodings of `30_encoding.md`: the encoder and the decoder undo each other, the decoder answers exactly on a
reset or a phase that has a name, a step follows that selection, and the output word (rules R51 to R55, R58). -/

namespace Sys2Proof.Machine

/-! ### Input words and selector words as their fields -/

/-- `rst` of the word of three inputs (rule R52). -/
@[simp] theorem InWord.rst_mk (rst start : Bool) (l : Level) : (InWord.mk rst start l).rst = rst := by
  cases rst <;> cases start <;> cases l <;> rfl

/-- `start` of the word of three inputs (rule R52). -/
@[simp] theorem InWord.start_mk (rst start : Bool) (l : Level) : (InWord.mk rst start l).start = start := by
  cases rst <;> cases start <;> cases l <;> rfl

/-- `line_in` of the word of three inputs (rule R52). -/
@[simp] theorem InWord.lineIn_mk (rst start : Bool) (l : Level) : (InWord.mk rst start l).lineIn = l := by
  cases rst <;> cases start <;> cases l <;> rfl

/-- An input word is its three fields (rule R52). -/
theorem InWord.mk_fields (w : InWord) : InWord.mk w.rst w.start w.lineIn = w := by
  revert w; decide

/-- A selector word is its two fields. -/
theorem selector_fields (w : SelWord) : selector w.ph w.inWord = w := by
  revert w; decide

/-! ### Decoding what was encoded -/

/-- The rule of a phase is encoded as the selector that selects it (rules R51 (2), R54). -/
theorem encode_ruleOf (p : Phase) {w : InWord} (h : w.rst = false) : encode (ruleOf p w) = selector p.code w := by
  revert w; cases p <;> decide

/-- The decoder undoes the encoder, whatever the operands are (rules R51, R53, R54). -/
theorem decode_encode (i : Instr) : decode (encode i) = .ok i := by
  cases i with
  | reset ph st l => simp [encode, decode_reset]
  | _ => simp [encode, decode_phase, ruleOf]

/-- A selector word fits a table word of eight bits, so the table decoder reads it as `decode` does. -/
theorem decodeTableWord_toNat {w : SelWord} {i : Instr} (h : decode w = .ok i) :
    decodeTableWord 8 w.toNat = some i := by
  have hw : w.toNat < 128 := w.isLt
  have hbits : tableBits 8 w.toNat = w.toNat := Nat.mod_eq_of_lt (by omega)
  simp [decodeTableWord, decodeWord, hbits, hw, h]

/-- Settles O1: the encoder writes the selector by which reset or the phase selects the instruction. -/
theorem decodeOfEncodeIsTheInstruction : Obligations.DecodeOfEncodeIsTheInstruction :=
  fun i => ⟨decode_encode i, decodeTableWord_toNat (decode_encode i)⟩

/-! ### Encoding what was decoded -/

/-- What the decoder answers is what reset or a phase selects, and there is no other way (rules R51, R55). -/
theorem decode_selector_cases {ph : PhaseWord} {w : InWord} {i : Instr} (h : decode (selector ph w) = .ok i) :
    (w.rst = true ∧ i = .reset ph w.start w.lineIn) ∨ (w.rst = false ∧ ∃ p : Phase, ph = p.code ∧ i = ruleOf p w) := by
  cases hr : w.rst with
  | true =>
    rw [decode_reset ph hr] at h
    cases h
    exact .inl ⟨rfl, rfl⟩
  | false =>
    by_cases hp : ph.toNat ≤ 8
    · obtain ⟨p, rfl⟩ := Phase.exists_code hp
      rw [decode_phase p hr] at h
      cases h
      exact .inr ⟨rfl, p, rfl, rfl⟩
    · rw [decode_reserved hr (Nat.lt_of_not_le hp)] at h
      cases h

/-- The encoder undoes the decoder wherever it answers (rules R51, R53, R54). -/
theorem encode_of_decode {w : SelWord} {i : Instr} (h : decode w = .ok i) : encode i = w := by
  rw [← selector_fields w] at h ⊢
  rcases decode_selector_cases h with ⟨hr, rfl⟩ | ⟨hr, p, hp, rfl⟩
  · rw [encode, ← hr, InWord.mk_fields]
  · rw [encode_ruleOf p hr, hp]

/-- Settles O2, by what the decoder can have answered. -/
theorem encodeOfDecodeIsTheWord : Obligations.EncodeOfDecodeIsTheWord := fun _ _ => encode_of_decode

/-! ### The words the decoder accepts -/

/-- The decoder answers exactly on a reset or a phase that has a name (rules R51, R55). -/
theorem decode_selector_ok_iff (ph : PhaseWord) (w : InWord) :
    (∃ i, decode (selector ph w) = .ok i) ↔ w.rst = true ∨ ph.toNat ≤ 8 := by
  constructor
  · rintro ⟨i, h⟩
    rcases decode_selector_cases h with ⟨hr, -⟩ | ⟨-, p, rfl, -⟩
    · exact .inl hr
    · exact .inr (Phase.code_le p)
  · intro h
    cases hr : w.rst with
    | true => exact ⟨_, decode_reset ph hr⟩
    | false =>
      obtain ⟨p, rfl⟩ := Phase.exists_code (h.resolve_left (by simp [hr]))
      exact ⟨_, decode_phase p hr⟩

/-- The phase field of a selector word as a number. -/
theorem SelWord.ph_toNat (w : SelWord) : w.ph.toNat = w.toNat / 8 := by
  revert w; decide

/-- The reset bit of a selector word as a number. -/
theorem SelWord.rst_iff (w : SelWord) : w.inWord.rst = true ↔ w.toNat / 4 % 2 = 1 := by
  revert w; decide

/-- Settles O4: a number within seven bits is decoded as a selector, and a wider one is rejected. -/
theorem decoderAcceptsExactlyWellFormedWords : Obligations.DecoderAcceptsExactlyWellFormedWords := by
  intro n
  by_cases hn : n < 128
  · have hword : (BitVec.ofNat 7 n : SelWord).toNat = n := Nat.mod_eq_of_lt hn
    rw [decodeWord, if_pos hn, ← selector_fields (BitVec.ofNat 7 n), decode_selector_ok_iff, SelWord.rst_iff,
      SelWord.ph_toNat, hword]
    simp [selectorWellFormed, selectorFits, selectorNamesARule, hn]
  · simp [decodeWord, selectorWellFormed, selectorFits, hn]

/-- Settles O3: each word is written from its row's pattern, and the decoder computes on it. -/
theorem writtenOutWordsDecode : Obligations.WrittenOutWordsDecode := by
  unfold Obligations.WrittenOutWordsDecode
  decide

/-! ### Step selection -/

/-- A phase selects the rule that `ruleOf` names for it (rule R51 (2)). -/
theorem selectedInPhase_of_ruleOf {p : Phase} {mk : Bool → Level → Instr} (h : ∀ w, ruleOf p w = mk w.start w.lineIn) :
    SelectedInPhase p mk := fun s hp hr => by rw [step_phase hp hr, h]

/-- In `IDLE` with `start = 0` the step is `NOP` (rule R51 (2)). -/
theorem step_nop {s : State} (hp : s.ph = Phase.idle.code) (hr : (s.inputAt 0).rst = false)
    (hs : (s.inputAt 0).start = false) : step s = exec (.nop (s.inputAt 0).lineIn) s.consumeInput := by
  rw [step_phase hp hr, ruleOf, if_neg (by simp [hs])]

/-- In `IDLE` with `start = 1` the step is `READ` (rule R51 (2)). -/
theorem step_read {s : State} (hp : s.ph = Phase.idle.code) (hr : (s.inputAt 0).rst = false)
    (hs : (s.inputAt 0).start = true) : step s = exec (.read (s.inputAt 0).lineIn) s.consumeInput := by
  rw [step_phase hp hr, ruleOf, if_pos hs]

/-- An instruction that leaves `DONE = 1` ended the transaction, and is none of the four that have no exit (rules R51,
R92). -/
theorem Edge.completes {i : Instr} {s t : State} (h : Edge i s t) (hd : t.done = true) :
    t.res ≠ .none ∧ t.ph = Phase.idle.code ∧ t.ten = false ∧ t.mask = false ∧
    (∀ ph st l, i ≠ .reset ph st l) ∧ (∀ l, i ≠ .nop l) ∧ (∀ l, i ≠ .read l) ∧ (∀ st l, i ≠ .hold st l) := by
  cases h with
  | ackATimeout | ackBTimeout | ackCTimeout | bitLTimeout | bitHTimeout | validFail | bitHInvalid | checkOk
  | checkMismatch => simp
  | _ => cases hd

/-- Settles O8, from reset first, the rule of the phase next, and the exits `Edge` lists. -/
theorem stepSelectionFollowsResetThenPhase : Obligations.StepSelectionFollowsResetThenPhase :=
  ⟨fun s h => step_of_decode (decode_reset s.ph h),
   fun _ => step_nop, fun _ => step_read,
   selectedInPhase_of_ruleOf fun _ => rfl, selectedInPhase_of_ruleOf fun _ => rfl,
   selectedInPhase_of_ruleOf fun _ => rfl, selectedInPhase_of_ruleOf fun _ => rfl,
   selectedInPhase_of_ruleOf fun _ => rfl, selectedInPhase_of_ruleOf fun _ => rfl,
   selectedInPhase_of_ruleOf fun _ => rfl, selectedInPhase_of_ruleOf fun _ => rfl,
   fun _ _ _ h => (edge_of_exec h).completes,
   fun s hp => (decode_selector_ok_iff s.ph (s.inputAt 0)).mpr (.inr hp)⟩

/-! ### The output word -/

/-- Settles O55: a field's slice lies above the fields to the right of it in the concatenation and within its own. -/
theorem outputWordHasTheFieldsInPlace : Obligations.OutputWordHasTheFieldsInPlace := by
  intro o
  unfold Outputs.word
  simp (disch := omega) only [BitVec.extractLsb'_append_eq_of_add_le, BitVec.extractLsb'_append_eq_of_le,
    Nat.sub_self, Nat.reduceSub, BitVec.extractLsb'_eq_self, and_self]

end Sys2Proof.Machine
end

section
/-! Runs on a given stimulus (`30_encoding.md` section 6): `Plays` says that a state runs through a list of input words
to another, and composes. A wait, each phase and the loop over the symbols are played once; a complete transaction is
their composition, with the forty bits in the store when `CHECK` reads it. -/

namespace Sys2Proof.Machine

/-- With the words `l` as the next inputs, `s` runs through all of them to `t`, whatever inputs come after them. -/
def Plays (l : List InWord) (s t : State) : Prop :=
  ∀ rest, steps l.length { s with inputs := l ++ rest } = .next { t with inputs := rest }

/-- Runs on stimuli compose. -/
theorem Plays.append {l m : List InWord} {s t u : State} (h : Plays l s t) (h' : Plays m t u) :
    Plays (l ++ m) s u := fun rest => by
  rw [List.length_append, List.append_assoc, steps_add (h (m ++ rest)), h' rest]

/-- The first edge, then the rest. -/
theorem Plays.cons {w : InWord} {l : List InWord} {s t u : State} (h : Plays [w] s t) (h' : Plays l t u) :
    Plays (w :: l) s u := h.append h'

/-- A stimulus that stands at the head of the inputs is used up. -/
theorem Plays.steps_eq {l rest : List InWord} {s t : State} (h : Plays l s t) (hin : s.inputs = l ++ rest) :
    steps l.length s = .next { t with inputs := rest } := by
  rw [← h rest, ← hin]

/-- No rule looks at the inputs to come (rule R11). -/
theorem Edge.setInputs {i : Instr} {s t : State} (h : Edge i s t) (rest : List InWord) :
    Edge i { s with inputs := rest } { t with inputs := rest } := by
  cases h <;> constructor <;> assumption

/-- One edge: the rule of the phase fires on the word. -/
theorem Plays.of_exec {p : Phase} {w : InWord} {s t : State} (hp : s.ph = p.code) (hr : w.rst = false)
    (h : exec (ruleOf p w) s = .next t) : Plays [w] s t := fun rest =>
  have hedge := (edge_of_exec h).setInputs rest
  steps_succ_of_next (n := 0) (step_of_edge (s := { s with inputs := w :: rest }) hp hr hedge)

/-! ### The wait -/

/-- From any count: `n` more samples at the wait's level, within the timeout, and then one away from it end the wait
with the count raised by `n` (rules R71, R72). -/
theorem plays_wait_from {p : Phase} {level other : Level} (hw : waitLevel p = some level) (hother : other ≠ level)
    {n : Nat} {s : State} (hp : s.ph = p.code) (hn : s.tcnt.toNat + n ≤ 500) :
    Plays (stimRun level n ++ stimRun other 1) s
      (waitExit p (s.tcnt + BitVec.ofNat 10 n)
        { s with done := false, tcnt := s.tcnt + BitVec.ofNat 10 n }) := by
  induction n generalizing s with
  | zero =>
    refine Plays.of_exec hp (InWord.rst_mk ..) ?_
    rw [exec_wait hw, InWord.lineIn_mk, waitWhile_exit (s := s.clearDone) hn hother, BitVec.add_zero]
    rfl
  | succ n ih =>
    have htick : (s.tcnt + 1#10).toNat = s.tcnt.toNat + 1 := tick_toNat (by omega)
    have hcount : s.tcnt + BitVec.ofNat 10 (n + 1) = s.clearDone.countTick.tcnt + BitVec.ofNat 10 n := by
      rw [Nat.add_comm, BitVec.ofNat_add, ← BitVec.add_assoc]; rfl
    rw [hcount]
    refine Plays.cons (t := s.clearDone.countTick) ?_ (ih hp ?_)
    · refine Plays.of_exec hp (InWord.rst_mk ..) ?_
      have hinTime : s.tcnt.toNat ≤ 500 := by omega
      rw [exec_wait hw, InWord.lineIn_mk, waitWhile_count (s := s.clearDone) hinTime]
    · change (s.tcnt + 1#10).toNat + n ≤ 500
      omega

/-- A wait entered with `TCNT = 0` (rules R71, R72). -/
theorem plays_wait {p : Phase} {level other : Level} (hw : waitLevel p = some level) (hother : other ≠ level)
    {n : Nat} {s : State} (hp : s.ph = p.code) (ht : s.tcnt = 0) (hn : n ≤ 500) :
    Plays (stimRun level n ++ stimRun other 1) s
      (waitExit p (BitVec.ofNat 10 n) { s with done := false, tcnt := BitVec.ofNat 10 n }) := by
  have h := plays_wait_from hw hother (n := n) hp (by simpa [ht] using hn)
  rwa [ht, show (0 : Ticks) + BitVec.ofNat 10 n = BitVec.ofNat 10 n from BitVec.zero_add _] at h

/-- A run of samples in two parts (rule R65). -/
theorem stimRun_add (level : Level) (m n : Nat) : stimRun level (m + n) = stimRun level m ++ stimRun level n :=
  (List.replicate_append_replicate).symm

/-! ### Phases 1 to 3 -/

/-- From any count: the last `n + 1` edges of the hold, the last of which releases the line (rule R69). -/
theorem plays_hold {n : Nat} {s : State} (hp : s.ph = Phase.hold.code) (hn : s.hcnt + (n + 1) = s.holdTicks.val) :
    Plays (stimRun .high (n + 1)) s
      { s with done := false, hcnt := s.holdTicks.val - 1, dir := .input, ten := true, mask := true, tcnt := 0,
               ph := Phase.ackA.code } := by
  induction n generalizing s with
  | zero =>
    have hlast : s.hcnt = s.holdTicks.val - 1 := by omega
    rw [← hlast]
    exact Plays.of_exec hp (InWord.rst_mk ..) (exec_of_edge (.holdRelease hlast))
  | succ n ih =>
    exact Plays.cons (Plays.of_exec hp (InWord.rst_mk ..) (exec_of_edge (.holdCount (by omega))))
      (ih (s := s.clearDone.setHcnt (s.hcnt + 1)) hp (show s.hcnt + 1 + (n + 1) = s.holdTicks.val by omega))

/-- `HOLDW` (rules R66, R69). -/
theorem plays_holdw {s : State} (hp : s.ph = Phase.hold.code) (hc : s.hcnt = 0) :
    Plays (stimHoldw s.holdTicks) s
      { s with done := false, hcnt := s.holdTicks.val - 1, dir := .input, ten := true, mask := true, tcnt := 0,
               ph := Phase.ackA.code } := by
  obtain ⟨n, hn⟩ := Nat.exists_eq_add_of_le' s.holdTicks.property
  rw [stimHoldw, hn]
  simpa [hn] using plays_hold (n := n) hp (by omega)

/-- `RESP` and `VGAP` cut where the three waits end: each is a run at its level and one sample away from it. -/
theorem stimResp_append_stimVgap (a t1 t2 : Nat) :
    stimResp a t1 t2 ++ stimVgap =
      (stimRun .high a ++ stimRun .low 1) ++
        ((stimRun .low t1 ++ stimRun .high 1) ++ (stimRun .high t2 ++ stimRun .low 1)) := by
  rw [stimResp, Nat.add_comm t1, Nat.add_comm t2, stimRun_add, stimRun_add, stimVgap]
  simp

/-- `RESP` and `VGAP` (rules R73 to R75, R77). -/
theorem plays_resp {s : State} {a t1 t2 : Nat} (hp : s.ph = Phase.ackA.code) (ht : s.tcnt = 0) (ha : a ≤ 500)
    (h1 : t1 ≤ 500) (h2 : t2 ≤ 500) :
    Plays (stimResp a t1 t2 ++ stimVgap) s
      { s with done := false, t1 := BitVec.ofNat 10 t1, t2 := BitVec.ofNat 10 t2, tcnt := 0,
               ph := Phase.valid.code } := by
  rw [stimResp_append_stimVgap]
  exact (plays_wait (p := .ackA) rfl Level.noConfusion hp ht ha).append
    ((plays_wait (p := .ackB) rfl Level.noConfusion rfl rfl h1).append
      (plays_wait (p := .ackC) rfl Level.noConfusion rfl rfl h2))

/-! ### The bits in the store -/

/-- The store after `Memory.write` of each bit in turn, to consecutive cells from `i` on. -/
def Memory.writeFrom : Memory → Nat → List Bit → Memory
  | m, _, [] => m
  | m, i, b :: bs => Memory.writeFrom (m.write i b) (i + 1) bs

/-- The cells below the first one written are left alone. -/
theorem Memory.read_writeFrom_below (bs : List Bit) (m : Memory) {i k : Nat} (h : k < i) :
    (m.writeFrom i bs).read? k = m.read? k := by
  induction bs generalizing m i with
  | nil => rfl
  | cons b bs ih => rw [Memory.writeFrom, ih _ (by omega), Memory.read_write_other m b (by omega)]

/-- The bits stand in the cells in the order of their writing. -/
theorem Memory.read_writeFrom {bs : List Bit} {j : Nat} (hj : j < bs.length) (m : Memory) (i : Nat) :
    (m.writeFrom i bs).read? (i + j) = some bs[j] := by
  induction bs generalizing m i j with
  | nil => cases hj
  | cons b bs ih =>
    cases j with
    | zero => rw [Memory.writeFrom, Memory.read_writeFrom_below _ _ (by omega)]; simp
    | succ j =>
      rw [Memory.writeFrom, ← Nat.add_assoc, Nat.add_right_comm]
      exact ih (by simpa using hj) ..

/-- A slice of the written cells holds the same slice of the bits. -/
theorem Memory.readBits_writeFrom (m : Memory) {bs : List Bit} {i n : Nat} (h : i + n ≤ bs.length) :
    (m.writeFrom 0 bs).readBits i n = some ((bs.drop i).take n) := by
  induction n generalizing i with
  | zero => simp [Memory.readBits]
  | succ n ih =>
    have hi : (m.writeFrom 0 bs).read? i = some bs[i] := by
      simpa using Memory.read_writeFrom (show i < bs.length by omega) m 0
    rw [Memory.readBits, hi, ih (by omega), List.drop_eq_getElem_cons (show i < bs.length by omega),
      List.take_succ_cons]

/-- A field of the written cells is the packing of its eight bits (rule R59). -/
theorem Memory.readByte_writeFrom (m : Memory) {bs : List Bit} {i : Nat} (h : i + 8 ≤ bs.length) :
    (m.writeFrom 0 bs).readByte i = some (pack ((bs.drop i).take 8)) := by
  rw [Memory.readByte, Memory.readBits_writeFrom m h]; rfl

/-! ### Phase 4 -/

/-- One symbol from the first edge of its `BIT_L`: the first Low sample of its `SYM` has been used up by the rule
before, and the Low sample after it ends `BIT_H` (rules R66, R82). -/
def symBody (lw : Nat × Nat) : List InWord :=
  (stimRun .low lw.1 ++ stimRun .high 1) ++ (stimRun .high lw.2 ++ stimRun .low 1)

/-- The symbols with `END` after them are one Low sample, which `VALID` uses up, and the bodies (rule R66). -/
theorem stimSymbols_append_stimEnd (syms : List (Nat × Nat)) :
    stimSymbols syms ++ stimEnd = stimRun .low 1 ++ syms.flatMap symBody := by
  induction syms with
  | nil => rfl
  | cons lw syms ih =>
    have hsym : stimSym lw.1 lw.2 ++ stimRun .low 1 = stimRun .low 1 ++ symBody lw := by
      rw [stimSym, Nat.add_comm lw.1, Nat.add_comm lw.2, stimRun_add, stimRun_add, symBody]
      simp
    calc stimSymbols (lw :: syms) ++ stimEnd
        = stimSym lw.1 lw.2 ++ (stimSymbols syms ++ stimEnd) := by simp [stimSymbols]
      _ = stimRun .low 1 ++ (symBody lw ++ syms.flatMap symBody) := by
        rw [ih, ← List.append_assoc, hsym, List.append_assoc]

/-- The two waits of a data bit (rules R79, R80). -/
theorem plays_symBody {s : State} {lw : Nat × Nat} (hp : s.ph = Phase.bitL.code) (ht : s.tcnt = 0)
    (hl : lw.1 ≤ 500) (hw : lw.2 ≤ 500) :
    Plays (symBody lw) s (bitHExit (BitVec.ofNat 10 lw.2)
      { s with done := false, tcnt := BitVec.ofNat 10 lw.2, ph := Phase.bitH.code }) :=
  (plays_wait (p := .bitL) rfl Level.noConfusion hp ht hl).append
    (plays_wait (p := .bitH) rfl Level.noConfusion rfl rfl hw)

/-- A bit before the last (rule R80). -/
theorem plays_symBody_next {s : State} {lw : Nat × Nat} {b : Bit} (hp : s.ph = Phase.bitL.code) (ht : s.tcnt = 0)
    (hl : lw.1 ≤ 500) (hw : lw.2 ≤ 500) (hb : classify (BitVec.ofNat 10 lw.2) = .bit b) (hi : s.bitidx ≠ 39) :
    Plays (symBody lw) s
      { s with done := false, raw := s.raw.write s.bitidx b, bitidx := s.bitidx + 1, tcnt := 0,
               ph := Phase.bitL.code } := by
  have h := plays_symBody hp ht hl hw
  simp only [bitHExit, hb, if_neg hi] at h
  exact h

/-- Bit 39 (rule R80). -/
theorem plays_symBody_last {s : State} {lw : Nat × Nat} {b : Bit} (hp : s.ph = Phase.bitL.code) (ht : s.tcnt = 0)
    (hl : lw.1 ≤ 500) (hw : lw.2 ≤ 500) (hb : classify (BitVec.ofNat 10 lw.2) = .bit b) (hi : s.bitidx = 39) :
    Plays (symBody lw) s
      { s with done := false, raw := s.raw.write s.bitidx b, tcnt := 0, ten := false, mask := false,
               ph := Phase.check.code } := by
  have h := plays_symBody hp ht hl hw
  simp only [bitHExit, hb, if_pos hi] at h
  exact h

/-- The loop of rule R81, from any bit on: the remaining bits go to the cells from `BITIDX` on, and `CHECK` follows. -/
theorem plays_symbols {syms : List (Nat × Nat)} {bits : List Bit} {s : State} (hp : s.ph = Phase.bitL.code)
    (ht : s.tcnt = 0) (hlen : s.bitidx.val + syms.length = 40) (hbounds : ∀ lw ∈ syms, lw.1 ≤ 500 ∧ lw.2 ≤ 500)
    (hclass : syms.map (fun lw => classify (BitVec.ofNat 10 lw.2)) = bits.map Symbol.bit) :
    Plays (syms.flatMap symBody) s
      { s with done := false, raw := s.raw.writeFrom s.bitidx bits, bitidx := 39, tcnt := 0, ten := false,
               mask := false, ph := Phase.check.code } := by
  induction syms generalizing s bits with
  | nil => exact absurd hlen (Nat.ne_of_lt s.bitidx.isLt)
  | cons lw syms ih =>
    obtain ⟨b, bits, rfl⟩ : ∃ b bs, bits = b :: bs := List.exists_cons_of_ne_nil (by rintro rfl; simp at hclass)
    simp only [List.map_cons, List.cons.injEq] at hclass
    obtain ⟨hb, hclass⟩ := hclass
    obtain ⟨⟨hl, hw⟩, hbounds⟩ := List.forall_mem_cons.mp hbounds
    rw [List.length_cons] at hlen
    by_cases hlast : s.bitidx = 39
    · obtain rfl : syms = [] := List.eq_nil_of_length_eq_zero (by omega)
      obtain rfl : bits = [] := by simpa using hclass.symm
      simpa [Memory.writeFrom, hlast] using plays_symBody_last hp ht hl hw hb hlast
    · have hnext : (s.bitidx + 1).val = s.bitidx.val + 1 := by omega
      have hrest := (plays_symBody_next hp ht hl hw hb hlast).append
        (ih (bits := bits) rfl rfl (show (s.bitidx + 1).val + syms.length = 40 by omega) hbounds hclass)
      simpa [Memory.writeFrom, hnext] using hrest

/-! ### The whole transaction -/

/-- A width given as a number within the bounds passes (rule R62). -/
theorem ackWidthOk_ofNat {t : Nat} (hlo : 60 < t) (hhi : t < 100) : ackWidthOk (BitVec.ofNat 10 t) = true :=
  (ackWidthOk_iff _).mpr (by rw [BitVec.toNat_ofNat, Nat.mod_eq_of_lt (by omega)]; exact ⟨hlo, hhi⟩)

/-- A transaction up to `END` leaves the engine in `CHECK` with the forty bits in the store and the readings as they
were (rules R66, R81). -/
theorem plays_to_check {s : State} {a t1 t2 : Nat} {syms : List (Nat × Nat)} {bits : List Bit}
    (hp : s.ph = Phase.idle.code) (ha : a ≤ 500) (h1lo : 60 < t1) (h1hi : t1 < 100) (h2lo : 60 < t2) (h2hi : t2 < 100)
    (hlen : syms.length = 40) (hbounds : ∀ lw ∈ syms, lw.1 ≤ 500 ∧ lw.2 ≤ 500)
    (hclass : syms.map (fun lw => classify (BitVec.ofNat 10 lw.2)) = bits.map Symbol.bit) :
    Plays (stimStart ++ (stimHoldw s.holdTicks ++ (stimResp a t1 t2 ++ stimVgap ++ (stimSymbols syms ++ stimEnd)))) s
      { s with done := false, dir := .input, lout := .low, hcnt := s.holdTicks.val - 1, t1 := BitVec.ofNat 10 t1,
               t2 := BitVec.ofNat 10 t2, raw := s.raw.writeFrom 0 bits, bitidx := 39, tcnt := 0, ten := false,
               mask := false, ph := Phase.check.code } := by
  rw [stimSymbols_append_stimEnd]
  refine Plays.append (Plays.of_exec hp (InWord.rst_mk ..) (exec_of_edge .read)) ?_
  refine Plays.append (plays_holdw (s := (s.clearDone.driveLow.setHcnt 0).goto .hold) rfl rfl) ?_
  refine Plays.append (plays_resp rfl rfl ha (by omega) (by omega)) ?_
  refine Plays.append (Plays.of_exec (p := .valid) rfl (InWord.rst_mk ..)
    (exec_of_edge (.validPass (ackWidthOk_ofNat h1lo h1hi) (ackWidthOk_ofNat h2lo h2hi)))) ?_
  exact plays_symbols rfl rfl (by simpa using hlen) hbounds hclass

/-- Settles O59: the stimulus is played up to `CHECK`, whose one edge decides by the checksum of the bytes in the
store. -/
theorem wholeTransactionPublishesTheFrame : Obligations.WholeTransactionPublishesTheFrame := by
  intro s a t1 t2 syms bits rest hp ha h1lo h1hi h2lo h2hi hlen hbounds hclass hin h tp p
  have hbits : bits.length = 40 := by simpa [hlen] using (congrArg List.length hclass).symm
  have hstim : stimTransaction s.holdTicks a t1 t2 syms =
      stimStart ++ (stimHoldw s.holdTicks ++ (stimResp a t1 t2 ++ stimVgap ++ (stimSymbols syms ++ stimEnd))) ++
        stimFin := by
    simp [stimTransaction]
  have hplay := plays_to_check hp ha h1lo h1hi h2lo h2hi hlen hbounds hclass
  have hH := s.raw.readByte_writeFrom (bs := bits) (i := 0) (by omega)
  have hT := s.raw.readByte_writeFrom (bs := bits) (i := 16) (by omega)
  have hP := s.raw.readByte_writeFrom (bs := bits) (i := 32) (by omega)
  rw [hstim] at hin ⊢
  cases hsum : checksumOk h tp p with
  | true =>
    have hrun := (hplay.append (Plays.of_exec (p := .check) rfl (InWord.rst_mk ..)
      (exec_of_edge (.checkOk hH hT hP hsum)))).steps_eq hin
    exact ⟨_, hrun, rfl, rfl, rfl, rfl, rfl, fun _ => ⟨rfl, rfl, rfl⟩,
      fun hne => absurd ((checksumOk_iff h tp p).mp hsum) hne⟩
  | false =>
    have hrun := (hplay.append (Plays.of_exec (p := .check) rfl (InWord.rst_mk ..)
      (exec_of_edge (.checkMismatch hH hT hP hsum)))).steps_eq hin
    exact ⟨_, hrun, rfl, rfl, rfl, rfl, rfl,
      fun heq => absurd ((checksumOk_iff h tp p).mpr heq) (by simp [hsum]), fun _ => ⟨rfl, rfl, rfl⟩⟩

end Sys2Proof.Machine
end

section
/-! `IDLE` and phase 1 (rules R67 to R70): the two commands, the hold counted edge by edge, what the three rules leave
unchanged, and that `start` is not looked at outside `IDLE`. -/

namespace Sys2Proof.Machine

/-! ### The two commands of `IDLE` -/

/-- Settles O14: the step selects `NOP`, and `NOP` has the one edge that ends the pulse. -/
theorem nopOnlyEndsTheDonePulse : Obligations.NopOnlyEndsTheDonePulse :=
  ⟨fun _ => step_nop, fun _ _ => exec_of_edge .nop⟩

/-- Settles O15: the step selects `READ`, whose one edge sets the registers that the three ports show. -/
theorem readDrivesTheLineLow : Obligations.ReadDrivesTheLineLow :=
  ⟨fun _ => step_read, fun _ _ => ⟨_, exec_of_edge .read, rfl, rfl, rfl, rfl⟩⟩

/-! ### The hold -/

/-- A step of the hold before its last edge (rule R69). -/
theorem step_hold_count {s : State} (hp : s.ph = Phase.hold.code) (hr : (s.inputAt 0).rst = false)
    (early : s.hcnt ≠ s.holdTicks.val - 1) :
    step s = .next (s.consumeInput.clearDone.setHcnt (s.hcnt + 1)) := by
  rw [← State.consumeInput_hcnt]
  exact step_of_edge (p := .hold) hp hr (.holdCount (by simpa using early))

/-- The last step of the hold (rule R69). -/
theorem step_hold_release {s : State} (hp : s.ph = Phase.hold.code) (hr : (s.inputAt 0).rst = false)
    (last : s.hcnt = s.holdTicks.val - 1) :
    step s = .next (s.consumeInput.clearDone.releaseLine.restartTimer.goto .ackA) :=
  step_of_edge (p := .hold) hp hr (.holdRelease (by simpa using last))

/-- From any count: `n + 1` edges that end before the hold does raise the count by `n + 1` and end the pulse of `DONE`,
and change no other register (rule R69). -/
theorem steps_hold_count {n : Nat} {s : State} (hp : s.ph = Phase.hold.code)
    (hr : ∀ k, k ≤ n → (s.inputAt k).rst = false) (hn : s.hcnt + (n + 1) < s.holdTicks.val) :
    steps (n + 1) s = .next ((s.afterInputs (n + 1)).clearDone.setHcnt (s.hcnt + (n + 1))) := by
  induction n generalizing s with
  | zero => rw [steps_succ_of_next (step_hold_count hp (hr 0 (Nat.le_refl 0)) (by omega)), State.afterInputs_one]; rfl
  | succ n ih =>
    have hstep := step_hold_count hp (hr 0 (Nat.zero_le _)) (by omega)
    have hlater (k) (hk : k ≤ n) := (congrArg InWord.rst (inputAt_of_step hstep k)).trans (hr (k + 1) (by omega))
    rw [steps_succ_of_next hstep, ih (by simpa using hp) hlater
      (show s.hcnt + 1 + (n + 1) < s.consumeInput.holdTicks.val by rw [State.consumeInput_holdTicks]; omega),
      State.afterInputs_succ s, State.setHcnt_hcnt, Nat.add_assoc, Nat.add_comm 1]
    rfl

/-- From any count: the last `n + 1` edges of the hold, of which the last releases the line (rule R69). -/
theorem steps_hold_release {n : Nat} {s : State} (hp : s.ph = Phase.hold.code)
    (hr : ∀ k, k ≤ n → (s.inputAt k).rst = false) (hn : s.hcnt + (n + 1) = s.holdTicks.val) :
    steps (n + 1) s = .next
      (((s.afterInputs (n + 1)).clearDone.setHcnt (s.holdTicks.val - 1)).releaseLine.restartTimer.goto .ackA) := by
  cases n with
  | zero =>
    have last : s.hcnt = s.holdTicks.val - 1 := by omega
    rw [steps_succ_of_next (step_hold_release hp (hr 0 (Nat.le_refl 0)) last), State.afterInputs_one, ← last,
      ← State.consumeInput_hcnt s]
    rfl
  | succ n =>
    have hcount := steps_hold_count (n := n) hp (fun k hk => hr k (by omega)) (by omega)
    have hlater := (congrArg InWord.rst (inputAt_of_steps hcount 0)).trans (hr _ (by omega))
    have last : s.hcnt + (n + 1) = s.holdTicks.val - 1 := by omega
    rw [steps_add hcount, steps_succ_of_next (step_hold_release (by simpa using hp) hlater last),
      ← State.afterInputs_one, ← s.afterInputs_add (n + 1) 1, ← last]
    rfl

/-- Settles O16: each edge of the hold counts or releases, by the two rules for it, and the runs of both kinds from
`HCNT = 0` are those from any count. -/
theorem holdLastsExactlyHoldTicks : Obligations.HoldLastsExactlyHoldTicks := by
  refine ⟨selectedInPhase_of_ruleOf fun _ => rfl, fun _ _ _ h => exec_of_edge (.holdRelease h),
    fun _ _ _ h => exec_of_edge (.holdCount h), fun s hp hc hr => ⟨fun k hk hlt => ?_, ?_⟩⟩
  · obtain ⟨n, rfl⟩ := Nat.exists_eq_add_of_le' hk
    have h := steps_hold_count (n := n) hp (fun k hk => hr k (by omega)) (by omega)
    rwa [hc, Nat.zero_add] at h
  · obtain ⟨n, hn⟩ := Nat.exists_eq_add_of_le' s.holdTicks.property
    have h := steps_hold_release (n := n) hp (fun k hk => hr k (by omega)) (by omega)
    rwa [← hn] at h

/-! ### `start` during a transaction -/

/-- Outside `IDLE` the rule of a phase does not look at `start` (rule R70). -/
theorem exec_ruleOf_start_irrelevant {p : Phase} {w w' : InWord} (s : State) (hp : p ≠ .idle)
    (hline : w.lineIn = w'.lineIn) : exec (ruleOf p w) s = exec (ruleOf p w') s := by
  cases p with
  | idle => exact absurd rfl hp
  | hold | valid | check => rfl
  | ackA | ackB | ackC | bitL | bitH => rw [exec_wait rfl, exec_wait rfl, hline]

/-- A rule other than `RESET` enters `IDLE` only by completing (rules R70, R92). -/
theorem Edge.completes_of_enters_idle {i : Instr} {s t : State} (h : Edge i s t) (hi : ∀ ph st l, i ≠ .reset ph st l)
    (hs : s.ph ≠ Phase.idle.code) (ht : t.ph = Phase.idle.code) : t.done = true := by
  cases h with
  | reset => exact absurd rfl (hi _ _ _)
  | nop | holdCount | ackACount | ackBCount | ackCCount | bitLCount | bitHCount => exact absurd ht hs
  | read | holdRelease | ackAExit | ackBExit | ackCExit | validPass | bitLExit | bitHLast | bitHNext => simp at ht
  | _ => rfl

/-- Settles O17: the rule of a phase outside `IDLE` does not look at `start`, a reserved phase is refused, and of the
rules a step without reset can fire only one that completes enters `IDLE`. -/
theorem startIsIgnoredDuringATransaction : Obligations.StartIsIgnoredDuringATransaction := by
  refine ⟨fun s w w' rest hidle hr hr' hline => ?_, fun s t hidle hr h ht => ?_⟩
  · by_cases hlegal : s.ph.toNat ≤ 8
    · obtain ⟨p, hp⟩ := Phase.exists_code hlegal
      rw [step_phase (s := { s with inputs := w :: rest }) hp hr,
        step_phase (s := { s with inputs := w' :: rest }) hp hr']
      exact exec_ruleOf_start_irrelevant _ (fun h => hidle (h ▸ hp)) hline
    · have hres := Nat.lt_of_not_le hlegal
      rw [step_reserved (s := { s with inputs := w :: rest }) hr hres,
        step_reserved (s := { s with inputs := w' :: rest }) hr' hres]
  · rcases step_next_cases h with ⟨hrst, -⟩ | ⟨-, p, -, he⟩
    · simp [hr] at hrst
    · exact he.completes_of_enters_idle (ruleOf_ne_reset _ _) (by simpa using hidle) ht

/-! ### The frame -/

/-- Settles O36: of the four edges of the three rules each writes only the registers its updates name. -/
theorem frameOfTheIdleAndHoldRules : Obligations.FrameOfTheIdleAndHoldRules := by
  intro i s t h hi
  cases edge_of_exec h with
  | nop => simp
  | read => simp
  | holdRelease last => simp [last]
  | holdCount early => simp [early]
  | _ => simp at hi

end Sys2Proof.Machine
end

section
/-! Phases 2 and 3 (rules R71 to R77): what one edge of a wait does and how long a wait lasts, the three response waits
and the validation of the widths they record, and what the four rules leave unchanged. -/

namespace Sys2Proof.Machine

/-! ### How long a wait lasts -/

/-- The inputs to come once those of `n` edges have been sampled (rule R11). -/
theorem State.inputAt_afterInputs (s : State) (n k : Nat) : (s.afterInputs n).inputAt k = s.inputAt (k + n) := by
  induction n generalizing s with
  | zero => rw [State.afterInputs_zero, Nat.add_zero]
  | succ n ih => rw [State.afterInputs_succ, ih, State.inputAt_consumeInput, Nat.add_assoc]

/-- The state of a wait that was entered in `s` with `TCNT = 0` and has counted `n` samples since (rule R72). -/
def State.waited (s : State) (n : Nat) : State :=
  { s.afterInputs n with done := false, tcnt := BitVec.ofNat 10 n }

theorem State.waited_inputAt (s : State) (n k : Nat) : (s.waited n).inputAt k = s.inputAt (k + n) :=
  (State.inputAt_congr rfl rfl k).trans (s.inputAt_afterInputs n k)

theorem State.waited_tcnt_toNat (s : State) {n : Nat} (h : n ≤ 501) : (s.waited n).tcnt.toNat = n := by
  rw [State.waited, BitVec.toNat_ofNat]; omega

/-- The input of one more edge is sampled, and nothing is counted yet. -/
theorem State.waited_consumeInput (s : State) (n : Nat) :
    (s.waited n).consumeInput.clearDone = { s.waited (n + 1) with tcnt := BitVec.ofNat 10 n } := by
  unfold State.waited
  rw [← State.afterInputs_one, ← s.afterInputs_add n 1]
  rfl

/-- One more sample is counted. -/
theorem State.waited_countTick (s : State) (n : Nat) :
    (s.waited n).consumeInput.clearDone.countTick = s.waited (n + 1) := by
  rw [State.waited_consumeInput]
  unfold State.waited
  rw [BitVec.ofNat_add]
  rfl

/-- A wait entered with `TCNT = 0` counts up to 501 samples at its level (rules R71, R72). -/
theorem steps_wait_count {p : Phase} {level : Level} (hw : waitLevel p = some level) {n : Nat} {s : State}
    (hp : s.ph = p.code) (ht : s.tcnt = 0) (hn : n ≤ 500)
    (hin : ∀ k, k ≤ n → (s.inputAt k).rst = false ∧ (s.inputAt k).lineIn = level) :
    steps (n + 1) s = .next (s.waited (n + 1)) := by
  induction n with
  | zero =>
    obtain ⟨hr, hl⟩ := hin 0 (Nat.le_refl 0)
    rw [steps_succ_of_next (step_wait_count hw hp hr (by simp [ht]) hl), State.waited, State.afterInputs_one]
    simp [steps, State.clearDone, State.countTick, ht]
  | succ n ih =>
    have hrun := ih (by omega) fun k hk => hin k (by omega)
    have hinTime : (s.waited (n + 1)).tcnt.toNat ≤ 500 := by rwa [s.waited_tcnt_toNat (by omega)]
    obtain ⟨hr, hl⟩ := hin (n + 1) (Nat.le_refl _)
    rw [← Nat.zero_add (n + 1), ← State.waited_inputAt] at hr hl
    have hstep := step_wait_count (s := s.waited (n + 1)) hw hp hr hinTime hl
    rw [steps_add hrun, steps_succ_of_next hstep, State.waited_countTick]
    rfl

/-- A wait entered with `TCNT = 0` ends at its first sample away from its level, after at most 500 at it (rules R71,
R72). -/
theorem steps_wait_exit {p : Phase} {level : Level} (hw : waitLevel p = some level) {n : Nat} {s : State}
    (hp : s.ph = p.code) (ht : s.tcnt = 0) (hn : n ≤ 500)
    (hin : ∀ k, k < n → (s.inputAt k).rst = false ∧ (s.inputAt k).lineIn = level)
    (hr : (s.inputAt n).rst = false) (hl : (s.inputAt n).lineIn ≠ level) :
    steps (n + 1) s =
      .next (waitExit p (BitVec.ofNat 10 n) { s.waited (n + 1) with tcnt := BitVec.ofNat 10 n }) := by
  cases n with
  | zero =>
    rw [steps_succ_of_next (step_wait_exit hw hp hr (by simp [ht]) hl), State.waited, State.afterInputs_one, ht]
    simp [steps, State.clearDone, ht]
  | succ n =>
    have hrun := steps_wait_count hw hp ht (by omega : n ≤ 500) fun k hk => hin k (by omega)
    have hinTime : (s.waited (n + 1)).tcnt.toNat ≤ 500 := by rwa [s.waited_tcnt_toNat (by omega)]
    rw [← Nat.zero_add (n + 1), ← State.waited_inputAt] at hr hl
    have hstep := step_wait_exit (s := s.waited (n + 1)) hw hp hr hinTime hl
    rw [steps_add hrun, steps_succ_of_next hstep, State.waited_consumeInput]
    rfl

/-- A wait entered with `TCNT = 0` that finds 501 samples at its level times out at the next edge (rules R71, R72). -/
theorem steps_wait_timeout {p : Phase} {level : Level} (hw : waitLevel p = some level) {s : State}
    (hp : s.ph = p.code) (ht : s.tcnt = 0)
    (hin : ∀ k, k < 501 → (s.inputAt k).rst = false ∧ (s.inputAt k).lineIn = level)
    (hr : (s.inputAt 501).rst = false) :
    steps 502 s = .next ({ s.waited 502 with tcnt := 501 }.finish .timeout) := by
  have hrun := steps_wait_count hw hp ht (Nat.le_refl 500) fun k hk => hin k (by omega)
  have hlate : 500 < (s.waited 501).tcnt.toNat := by rw [s.waited_tcnt_toNat (Nat.le_refl _)]; decide
  rw [← Nat.zero_add 501, ← State.waited_inputAt] at hr
  have hstep := step_wait_timeout (s := s.waited 501) hw hp hr hlate
  rw [steps_add (n := 501) (m := 1) hrun, steps_succ_of_next hstep, State.waited_consumeInput]
  rfl

/-- Settles O20: the three ways a run of a wait goes on from `TCNT = 0`. -/
theorem waitEndsByElapsedOrTimeout : Obligations.WaitEndsByElapsedOrTimeout := by
  refine fun p level s hw hp ht => ⟨fun n => steps_wait_exit hw hp ht, fun hin =>
    ⟨fun k hpos hk => ?_, steps_wait_timeout hw hp ht hin⟩⟩
  obtain ⟨n, rfl⟩ := Nat.exists_eq_add_of_le' hpos
  exact steps_wait_count hw hp ht (by omega) fun j hj => hin j (by omega)

/-- Settles O25: a run of `m` samples is the `m - 1` that the wait counts after the one that ended the wait before it,
so the stimulus is `RESP` and `VGAP`. -/
theorem ackRunsGiveTheWidths : Obligations.AckRunsGiveTheWidths := by
  intro s a m1 m2 rest hp ht ha h1 h1' h2 h2' hin
  obtain ⟨t1, rfl⟩ := Nat.exists_eq_add_of_le' h1
  obtain ⟨t2, rfl⟩ := Nat.exists_eq_add_of_le' h2
  have hplay := plays_resp (t1 := t1) (t2 := t2) hp ht ha (by omega) (by omega)
  have hlen : (stimResp a t1 t2 ++ stimVgap).length = a + 1 + (t1 + 1) + (t2 + 1) := by
    simp [stimResp, stimVgap, stimRun]; omega
  rw [← hlen]
  exact hplay.steps_eq hin

/-! ### The frame -/

/-- Settles O37: each edge of the four rules writes only the registers its updates name. -/
theorem frameOfTheResponseRules : Obligations.FrameOfTheResponseRules := by
  intro i s t h hi
  cases edge_of_exec h with
  | ackATimeout | ackAExit | ackACount | ackBTimeout | ackBExit | ackBCount | ackCTimeout | ackCExit | ackCCount
  | validPass | validFail => simp
  | _ => simp at hi

/-! ### One edge of a wait -/

/-- A wait for the end of a bit that classifies clears the timer (rule R80). -/
theorem bitHExit_tcnt {w : Ticks} (s : State) (h : classify w ≠ .invalid) : (bitHExit w s).tcnt = 0 := by
  unfold bitHExit
  split
  · contradiction
  · split <;> rfl

/-- Settles O19: the wait's three cases, the waits of the five phases, and the timer after each exit. -/
theorem waitDoesOneOfThreeThings : Obligations.WaitDoesOneOfThreeThings :=
  ⟨fun _ _ _ _ => ⟨waitWhile_timeout, waitWhile_exit, fun h hl => hl ▸ waitWhile_count h⟩,
   fun _ _ _ => ⟨rfl, rfl, rfl, rfl, rfl⟩,
   fun _ s => ⟨rfl, rfl, rfl, rfl, bitHExit_tcnt s⟩⟩

/-! ### The three response waits and the validation -/

/-- Settles O21: the three edges of `ACK_A`. -/
theorem ackAWaitsForLow : Obligations.AckAWaitsForLow :=
  ⟨selectedInPhase_of_ruleOf fun _ => rfl, fun _ _ _ =>
    ⟨fun h => exec_of_edge (.ackATimeout h),
     fun h hl => hl ▸ exec_of_edge (.ackAExit h),
     fun h hl => hl ▸ exec_of_edge (.ackACount h)⟩⟩

/-- Settles O22: the three edges of `ACK_B`. -/
theorem ackBRecordsTheLowWidth : Obligations.AckBRecordsTheLowWidth :=
  ⟨selectedInPhase_of_ruleOf fun _ => rfl, fun _ _ _ =>
    ⟨fun h => exec_of_edge (.ackBTimeout h),
     fun h hl => hl ▸ exec_of_edge (.ackBExit h),
     fun h hl => hl ▸ exec_of_edge (.ackBCount h)⟩⟩

/-- Settles O23: the three edges of `ACK_C`. -/
theorem ackCRecordsTheHighWidth : Obligations.AckCRecordsTheHighWidth :=
  ⟨selectedInPhase_of_ruleOf fun _ => rfl, fun _ _ _ =>
    ⟨fun h => exec_of_edge (.ackCTimeout h),
     fun h hl => hl ▸ exec_of_edge (.ackCExit h),
     fun h hl => hl ▸ exec_of_edge (.ackCCount h)⟩⟩

/-- Settles O24: the two edges of `VALID`, with each width's test read as its two bounds. -/
theorem validTestsBothWidthsStrictly : Obligations.ValidTestsBothWidthsStrictly := by
  refine ⟨selectedInPhase_of_ruleOf fun _ => rfl, fun _ _ s => ⟨?_, fun bad => ?_⟩⟩
  · rintro ⟨h1lo, h1hi, h2lo, h2hi⟩
    exact exec_of_edge (.validPass ((ackWidthOk_iff _).mpr ⟨h1lo, h1hi⟩) ((ackWidthOk_iff _).mpr ⟨h2lo, h2hi⟩))
  · rw [← and_assoc, ← ackWidthOk_iff, ← ackWidthOk_iff] at bad
    exact exec_of_edge (.validFail bad)

end Sys2Proof.Machine
end

section
/-! Phase 4 (rules R78 to R82): the bands of the pulse-width discriminator, one edge of each of the two sampling rules,
the samples of one whole bit, and what the two rules leave unchanged. -/

namespace Sys2Proof.Machine

/-! ### One whole bit -/

/-- A symbol's body, with its two High runs read as one (rule R82). -/
theorem symBody_eq_runs (l w : Nat) :
    symBody (l, w) = stimRun .low l ++ stimRun .high (w + 1) ++ stimRun .low 1 := by
  rw [symBody, Nat.add_comm w, stimRun_add]
  simp only [List.append_assoc]

theorem symBody_length (l w : Nat) : (symBody (l, w)).length = l + 1 + (w + 1) := by
  simp [symBody, stimRun]; omega

/-- A width in neither band ends the transaction, and the timer's count stays (rule R80). -/
theorem plays_symBody_invalid {s : State} {lw : Nat × Nat} (hp : s.ph = Phase.bitL.code) (ht : s.tcnt = 0)
    (hl : lw.1 ≤ 500) (hw : lw.2 ≤ 500) (hbad : classify (BitVec.ofNat 10 lw.2) = .invalid) :
    Plays (symBody lw) s
      { s with res := .invalidBitTiming, done := true, ten := false, mask := false, tcnt := BitVec.ofNat 10 lw.2,
               ph := Phase.idle.code } := by
  have h := plays_symBody hp ht hl hw
  simp only [bitHExit, hbad] at h
  exact h

/-- Settles O29: the stimulus is one symbol's body, which is played to the next bit, to `CHECK`, or to the end of the
transaction. -/
theorem bitRunsGiveTheBit : Obligations.BitRunsGiveTheBit := by
  intro s l w rest hp ht hl hw hin
  rw [← symBody_eq_runs] at hin
  rw [← symBody_length]
  exact ⟨fun b hb hi => (plays_symBody_next hp ht hl hw hb (Fin.ne_of_lt hi)).steps_eq hin,
    fun b hb hi => (plays_symBody_last hp ht hl hw hb hi).steps_eq hin,
    fun hbad => (plays_symBody_invalid hp ht hl hw hbad).steps_eq hin⟩

/-! ### The frame -/

/-- Settles O38: of the edges of the two rules only those that accept a bit write a cell, the one at `BITIDX`, and they
need a Low sample within the timeout and a width in one of the bands. -/
theorem frameOfTheSamplingRules : Obligations.FrameOfTheSamplingRules := by
  constructor
  · intro start lineIn s t h
    cases edge_of_exec h with
    | bitLTimeout | bitLExit | bitLCount => simp
  · intro start lineIn s t h
    cases edge_of_exec h with
    | bitHTimeout | bitHInvalid | bitHCount => simp
    | bitHLast inTime good | bitHNext inTime good =>
      simp +contextual [good, Nat.not_lt.mpr inTime, Memory.read_write_other]

/-! ### The bands and the two waits -/

/-- Settles O26: no width lies in both bands, so each class has one case of `classify_cases`. -/
theorem classifyHasTwoStrictBands : Obligations.ClassifyHasTwoStrictBands := by
  intro w
  rcases classify_cases w with ⟨hband, hclass⟩ | ⟨hband, hclass⟩ | ⟨hnot0, hnot1, hclass⟩ <;> rw [hclass]
  · have hnot1 : ¬(60 < w.toNat ∧ w.toNat < 80) := by omega
    simp [hband, hnot1]
  · have hnot0 : ¬(20 < w.toNat ∧ w.toNat < 30) := by omega
    simp [hband, hnot0]
  · simp [hnot0, hnot1]

/-- Settles O27: the three edges of `BIT_L`. -/
theorem bitLWaitsForHigh : Obligations.BitLWaitsForHigh :=
  ⟨selectedInPhase_of_ruleOf fun _ => rfl, fun _ _ _ =>
    ⟨fun h => exec_of_edge (.bitLTimeout h),
     fun h hl => hl ▸ exec_of_edge (.bitLExit h),
     fun h hl => hl ▸ exec_of_edge (.bitLCount h)⟩⟩

/-- Settles O28: the five edges of `BIT_H`, and the stored bit read back. -/
theorem bitHClassifiesAndStores : Obligations.BitHClassifiesAndStores :=
  ⟨selectedInPhase_of_ruleOf fun _ => rfl, fun _ _ _ =>
    ⟨fun h => exec_of_edge (.bitHTimeout h),
     fun h hl => hl ▸ exec_of_edge (.bitHCount h),
     fun h hl hbad => hl ▸ exec_of_edge (.bitHInvalid h hbad),
     fun _ h hl hb hi => hl ▸ exec_of_edge (.bitHLast h hb hi),
     fun _ h hl hb hi => hl ▸ exec_of_edge (.bitHNext h hb (Fin.ne_of_lt hi)),
     Memory.read_write_same .., Memory.read_write_same .., fun hi => Fin.val_add_one_of_lt hi⟩⟩

end Sys2Proof.Machine
end

section
/-! Phase 5 (rules R83 to R86): the accumulator that packs a byte, the checksum of two bytes, the two edges of `CHECK`
in terms of its 24 cells, and what it leaves unchanged. -/

namespace Sys2Proof.Machine

/-! ### The two edges of `CHECK` -/

/-- A field whose eight cells all hold a value is the packing of them in index order (rules R45, R59). -/
theorem Memory.readByte_of_cells {m : Memory} {base : Nat} {cell : Nat → Bit}
    (h : ∀ k, base ≤ k → k < base + 8 → m.read? k = some (cell k)) :
    m.readByte base = some (pack [cell base, cell (base + 1), cell (base + 2), cell (base + 3), cell (base + 4),
      cell (base + 5), cell (base + 6), cell (base + 7)]) := by
  refine (fieldIsThePackingOfItsCells m base).1 _ _ _ _ _ _ _ _ ?_ ?_ ?_ ?_ ?_ ?_ ?_ ?_ <;>
    exact h _ (by omega) (by omega)

/-- Settles O33: the cells give the three fields, and the checksum of the fields chooses between the two edges. -/
theorem checkPublishesOnlyMatchingFrames : Obligations.CheckPublishesOnlyMatchingFrames := by
  refine ⟨selectedInPhase_of_ruleOf fun _ => rfl, ?_⟩
  intro start lineIn s cell hcells h t p
  have hH : s.raw.readByte 0 = some h := Memory.readByte_of_cells fun k _ _ => hcells k (by omega)
  have hT : s.raw.readByte 16 = some t := Memory.readByte_of_cells fun k _ _ => hcells k (by omega)
  have hP : s.raw.readByte 32 = some p := Memory.readByte_of_cells fun k _ _ => hcells k (by omega)
  rw [ne_eq, ← checksumOk_iff]
  exact ⟨fun good => exec_of_edge (.checkOk hH hT hP good),
    fun bad => exec_of_edge (.checkMismatch hH hT hP (Bool.eq_false_of_not_eq_true bad))⟩

/-! ### The frame -/

/-- Settles O39: both edges end the transaction and write nothing else, but the one that publishes ends it with `OK`. -/
theorem frameOfTheChecksumRule : Obligations.FrameOfTheChecksumRule := by
  intro start lineIn s t h
  cases edge_of_exec h with
  | checkOk | checkMismatch => simp

/-! ### Packing and the checksum -/

/-- A step of the accumulator doubles it and adds the bit, and drops what leaves the byte (rule R83). -/
theorem packStep_toNat (acc : Byte) (b : Bit) : (packStep acc b).toNat = (acc.toNat * 2 + b.toNat) % 256 := by
  have hdisjoint : (acc <<< 1) &&& b.setWidth 8 = 0#8 := by
    ext i hi
    rcases i with - | i <;> simp
  rw [packStep, ← BitVec.add_eq_or_of_and_eq_zero _ _ hdisjoint]
  simp [BitVec.toNat_add, BitVec.toNat_shiftLeft, Nat.shiftLeft_eq]

/-- Settles O30: from 0, eight steps of the accumulator stay within the byte. -/
theorem packPutsTheFirstBitHighest : Obligations.PackPutsTheFirstBitHighest := by
  intro b0 b1 b2 b3 b4 b5 b6 b7
  simp only [pack, List.foldl, packStep_toNat]
  omega

/-- Settles O32: `ChecksumOk` tests the sum modulo 256, which is the number of the 8-bit sum. -/
theorem checksumSumsTwoBytes : Obligations.ChecksumSumsTwoBytes := by
  intro h t p
  refine ⟨checksumOk_iff h t p, checksumOk_add, ?_⟩
  rintro rfl
  exact (checksumOk_iff h t _).mpr (BitVec.toNat_add h t).symm

end Sys2Proof.Machine
end

section
/-! Completions and the other exits (rules R88 to R97, R106): a state of the invariant has a next state, what `Finish`
writes, which phase ends a transaction with which result, where the mask request and the timer change, and which test
comes first within an edge. -/

namespace Sys2Proof.Machine

/-! ### Progress -/

/-- Settles O42, by the rule that is selected in each phase of the invariant. -/
theorem everyInvariantStateHasASuccessor : Obligations.EveryInvariantStateHasASuccessor :=
  fun _ => State.Inv.step_next

/-! ### Completions -/

/-- A completion is `Finish` with a result, after nothing but the default `DONE <- 0` and, when the result is `OK`, the
publication of the two readings (rule R92). -/
theorem Edge.completion_eq_finish {i : Instr} {s t : State} (h : Edge i s t) (hd : t.done = true) :
    (∃ code, code ≠ .none ∧ t = s.clearDone.finish code) ∨
    (∃ hb tb, t = (s.clearDone.publish hb tb).finish .ok) := by
  rcases h.result_cases with
    ⟨_, _, _, -, rfl⟩ | ⟨hf, -⟩ | hfinish | ⟨_, _, hb, tb, _, -, -, -, -, -, hpublish⟩
  · cases hd
  · simp [hf] at hd
  · exact .inl hfinish
  · exact .inr ⟨hb, tb, hpublish⟩

/-- Settles O47: both forms of a completion end in `Finish`, and the one that publishes has the result `OK`. -/
theorem completionWritesExactlyTheFinishRegisters : Obligations.CompletionWritesExactlyTheFinishRegisters := by
  refine ⟨fun _ _ => rfl, fun i s t h hd => ?_⟩
  rcases (edge_of_exec h).completion_eq_finish hd with ⟨code, hcode, rfl⟩ | ⟨hb, tb, rfl⟩
  · simp [hcode]
  · simp

/-- Settles O48: the exits `Edge` lists, each with the result it finishes with. -/
theorem phaseDecidesThePossibleResults : Obligations.PhaseDecidesThePossibleResults := by
  intro i s t h hd
  cases edge_of_exec h with
  | ackATimeout | ackBTimeout | ackCTimeout | bitLTimeout | bitHTimeout => exact .inl ⟨rfl, by simp⟩
  | validFail => exact .inr (.inl ⟨rfl, _, _, rfl⟩)
  | bitHInvalid => exact .inr (.inr (.inl ⟨rfl, _, _, rfl⟩))
  | checkOk => exact .inr (.inr (.inr ⟨.inl rfl, _, _, rfl⟩))
  | checkMismatch => exact .inr (.inr (.inr ⟨.inr rfl, _, _, rfl⟩))
  | _ => cases hd

/-! ### The mask request and the timer -/

/-- An edge raises both flags at the release of the line, drops both at a completion, a reset or the acceptance of bit
39, or leaves both (rules R96, R97). -/
theorem Edge.mask_ten_cases {i : Instr} {s t : State} (h : Edge i s t) :
    (((∃ st l, i = .hold st l) ∧ s.hcnt = s.holdTicks.val - 1 ∧ t.ph = Phase.ackA.code) ∧
      t.mask = true ∧ t.ten = true) ∨
    ((t.done = true ∨ (∃ ph st l, i = .reset ph st l) ∨
      ((∃ st l, i = .bitH st l) ∧ s.bitidx = 39 ∧ t.ph = Phase.check.code)) ∧ t.mask = false ∧ t.ten = false) ∨
    (t.mask = s.mask ∧ t.ten = s.ten) := by
  cases h with
  | holdRelease last => exact .inl ⟨⟨⟨_, _, rfl⟩, last, rfl⟩, rfl, rfl⟩
  | reset => exact .inr (.inl ⟨.inr (.inl ⟨_, _, _, rfl⟩), rfl, rfl⟩)
  | bitHLast inTime good last => exact .inr (.inl ⟨.inr (.inr ⟨⟨_, _, rfl⟩, last, rfl⟩), rfl, rfl⟩)
  | ackATimeout | ackBTimeout | ackCTimeout | bitLTimeout | bitHTimeout | validFail | bitHInvalid | checkOk
  | checkMismatch => exact .inr (.inl ⟨.inl rfl, rfl, rfl⟩)
  | _ => exact .inr (.inr ⟨rfl, rfl⟩)

/-- Settles O51: of the three things an edge can do to the two flags, only the release raises one and only the listed
exits drop one. -/
theorem maskAndTimerRiseAtReleaseAndFallOnEveryExit : Obligations.MaskAndTimerRiseAtReleaseAndFallOnEveryExit := by
  refine ⟨fun i s t h hrise => ?_, fun i s t h hfall => ?_, fun i s t h hd => ?_⟩
  · rcases (edge_of_exec h).mask_ten_cases with ⟨hrelease, -⟩ | ⟨-, hmask, hten⟩ | ⟨hmask, hten⟩
    · exact hrelease
    · simp [hmask, hten] at hrise
    · simp [hmask, hten] at hrise
  · rcases (edge_of_exec h).mask_ten_cases with ⟨-, hmask, hten⟩ | ⟨hexit, -⟩ | ⟨hmask, hten⟩
    · simp [hmask, hten] at hfall
    · exact hexit
    · simp [hmask, hten] at hfall
  · obtain ⟨-, -, hten, hmask, -⟩ := (edge_of_exec h).completes hd
    exact ⟨hmask, hten⟩

/-! ### The order of the tests within an edge -/

/-- A width in neither band ends the transaction and stores nothing (rule R80). -/
theorem bitHExit_invalid {w : Ticks} (s : State) (h : classify w = .invalid) :
    bitHExit w s = s.finish .invalidBitTiming := by
  simp only [bitHExit, h, State.abort_eq_finish]

/-- Settles O50: reset is selected first, a wait tests the timeout before the line, and `BIT_H` classifies at the exit
of its wait. -/
theorem resetThenTimeoutThenLine : Obligations.ResetThenTimeoutThenLine := by
  refine ⟨fun _ => step_reset, fun _ _ _ hw hp hr hlate => step_wait_timeout hw hp hr hlate,
    fun s hp hr hl hinTime hbad => ?_⟩
  have hexit : step s = .next (bitHExit s.tcnt s.consumeInput.clearDone) :=
    step_wait_exit (p := .bitH) rfl hp hr hinTime (by simp [hl])
  rw [hexit, bitHExit_invalid _ hbad]
  rfl

end Sys2Proof.Machine
end

section
/-! Reset and the length of a transaction (rules R107 to R110, R119, R120): reset held, the wait for `READ` after it,
what no rule writes, and two counts of the edges to a completion, one that no run outlasts and one that no run
undercuts. -/

namespace Sys2Proof.Machine

/-! ### Edges without reset -/

/-- After the first of `n + 1` edges without reset, `n` more are without reset. -/
theorem noReset_of_step {n : Nat} {s t : State} (h : step s = .next t)
    (hr : ∀ k, k < n + 1 → (s.inputAt k).rst = false) : ∀ k, k < n → (t.inputAt k).rst = false := fun k hk => by
  rw [inputAt_of_step h]
  exact hr (k + 1) (Nat.succ_lt_succ hk)

/-! ### The longest transaction -/

/-- An upper bound on the edges from a busy state to its completion (rule R120). A wait that goes on to the next phase
takes at most 501 edges and one that times out 502; a width that passes its test was measured in at most 100 edges as an
acknowledgment and 80 as a bit, and one that fails it leaves few. So the last bit has at most 501 + 502 edges, each bit
before it 501 + 80, `VALID` one more than all bits, and the waits `ACK_C`, `ACK_B` and `ACK_A` add 100, 100 and 501. -/
def edgesLeft (s : State) : Phase → Nat
  | .idle => 0
  | .hold => s.holdTicks.val - s.hcnt + 24364
  | .ackA => 24364 - s.tcnt.toNat
  | .ackB => 23863 - s.tcnt.toNat
  | .ackC => if ackWidthOk s.t1 then 23763 - s.tcnt.toNat else 502 - s.tcnt.toNat
  | .valid => if ackWidthOk s.t1 ∧ ackWidthOk s.t2 then 23663 else 1
  | .bitL => 1003 - s.tcnt.toNat + 581 * (39 - s.bitidx.val)
  | .bitH => 502 - s.tcnt.toNat + 581 * (39 - s.bitidx.val)
  | .check => 1

/-- The bound looks at the registers, not at the inputs to come. -/
theorem edgesLeft_consumeInput (s : State) (p : Phase) : edgesLeft s.consumeInput p = edgesLeft s p := by
  cases p <;> simp only [edgesLeft, State.consumeInput_holdTicks, State.consumeInput_hcnt, State.consumeInput_tcnt,
    State.consumeInput_t1, State.consumeInput_t2, State.consumeInput_bitidx]

/-- A busy state of the invariant has at least its completion edge before it. -/
theorem State.Inv.edgesLeft_pos {s : State} {p : Phase} (h : s.Inv) (hbusy : p ≠ .idle) : 0 < edgesLeft s p := by
  have ht := h.tcnt_bound
  cases p with
  | idle => exact absurd rfl hbusy
  | ackC | valid => simp only [edgesLeft]; split <;> omega
  | _ => simp only [edgesLeft]; omega

/-- No state has more edges left than rule R120 allows after the `READ` edge. -/
theorem edgesLeft_le (s : State) (p : Phase) : edgesLeft s p ≤ longestRemainder s.holdTicks := by
  unfold longestRemainder
  cases p with
  | ackC | valid => simp only [edgesLeft]; split <;> omega
  | _ => simp only [edgesLeft]; omega

/-- A wait that goes on has one edge fewer left. -/
theorem edgesLeft_countTick_lt {s : State} {p : Phase} {level : Level} (hw : waitLevel p = some level)
    (ht : s.tcnt.toNat ≤ 500) : edgesLeft s.clearDone.countTick p < edgesLeft s p := by
  have htick : s.clearDone.countTick.tcnt.toNat = s.tcnt.toNat + 1 := tick_toNat ht
  cases p with
  | idle | hold | valid | check => cases hw
  | ackC => simp only [edgesLeft, htick, State.countTick_t1, State.clearDone_t1]; split <;> omega
  | ackA | ackB | bitL | bitH => simp only [edgesLeft, htick, State.countTick_bitidx, State.clearDone_bitidx]; omega

/-- A width that passes as an acknowledgment is below 100 ticks (rule R62). -/
theorem lt_of_ackWidthOk {t : Ticks} (h : ackWidthOk t = true) : t.toNat < 100 := ((ackWidthOk_iff t).mp h).2

/-- A width that classifies as a bit is below 80 ticks (rule R61). -/
theorem lt_of_classify_bit {w : Ticks} {b : Bit} (h : classify w = .bit b) : w.toNat < 80 := by
  rcases classify_cases w with ⟨hw, -⟩ | ⟨hw, -⟩ | ⟨-, -, hw⟩
  · omega
  · omega
  · simp [hw] at h

/-- The rule of a busy phase completes the transaction, or goes on to a busy phase with fewer edges left. -/
theorem Edge.completes_or_fewer_left {p : Phase} {w : InWord} {s t : State} (he : Edge (ruleOf p w) s t) (h : s.Inv)
    (hp : s.ph = p.code) (hbusy : p ≠ .idle) :
    t.done = true ∨ ∃ q : Phase, t.ph = q.code ∧ q ≠ .idle ∧ edgesLeft t q < edgesLeft s p := by
  simp only [ruleOf] at he
  generalize w.lineIn = l at he
  cases p with
  | idle => exact absurd rfl hbusy
  | hold =>
    have hticks := s.holdTicks.property
    have hcnt := h.hcnt_bound
    cases he with
    | holdRelease last => exact .inr ⟨.ackA, rfl, by decide, by simp [edgesLeft]; omega⟩
    | holdCount early => exact .inr ⟨.hold, hp, by decide, by simp [edgesLeft]; omega⟩
  | ackA =>
    cases he with
    | ackATimeout late => exact .inl rfl
    | ackAExit inTime => exact .inr ⟨.ackB, rfl, by decide, by simp [edgesLeft]; omega⟩
    | ackACount inTime => exact .inr ⟨.ackA, hp, by decide, edgesLeft_countTick_lt rfl inTime⟩
  | ackB =>
    cases he with
    | ackBTimeout late => exact .inl rfl
    | ackBExit inTime =>
      refine .inr ⟨.ackC, rfl, by decide, ?_⟩
      cases hok : ackWidthOk s.tcnt with
      | true => have := lt_of_ackWidthOk hok; simp [edgesLeft, hok]; omega
      | false => simp [edgesLeft, hok]; omega
    | ackBCount inTime => exact .inr ⟨.ackB, hp, by decide, edgesLeft_countTick_lt rfl inTime⟩
  | ackC =>
    cases he with
    | ackCTimeout late => exact .inl rfl
    | ackCExit inTime =>
      refine .inr ⟨.valid, rfl, by decide, ?_⟩
      cases hok1 : ackWidthOk s.t1 with
      | false => simp [edgesLeft, hok1]; omega
      | true =>
        cases hok2 : ackWidthOk s.tcnt with
        | true => have := lt_of_ackWidthOk hok2; simp [edgesLeft, hok1, hok2]; omega
        | false => simp [edgesLeft, hok1, hok2]; omega
    | ackCCount inTime => exact .inr ⟨.ackC, hp, by decide, edgesLeft_countTick_lt rfl inTime⟩
  | valid =>
    cases he with
    | validPass pass1 pass2 => exact .inr ⟨.bitL, rfl, by decide, by simp [edgesLeft, pass1, pass2]⟩
    | validFail bad => exact .inl rfl
  | bitL =>
    cases he with
    | bitLTimeout late => exact .inl rfl
    | bitLExit inTime => exact .inr ⟨.bitH, rfl, by decide, by simp [edgesLeft]; omega⟩
    | bitLCount inTime => exact .inr ⟨.bitL, hp, by decide, edgesLeft_countTick_lt rfl inTime⟩
  | bitH =>
    cases he with
    | bitHTimeout late => exact .inl rfl
    | bitHInvalid inTime bad => exact .inl rfl
    | bitHLast inTime good last =>
      have hw := lt_of_classify_bit good
      exact .inr ⟨.check, rfl, by decide, by simp only [edgesLeft]; omega⟩
    | bitHNext inTime good more =>
      have hw := lt_of_classify_bit good
      have hidx : (s.bitidx + 1).val = s.bitidx.val + 1 := by omega
      exact .inr ⟨.bitL, rfl, by decide, by simp [edgesLeft, hidx]; omega⟩
    | bitHCount inTime => exact .inr ⟨.bitH, hp, by decide, edgesLeft_countTick_lt rfl inTime⟩
  | check =>
    cases he with
    | checkOk | checkMismatch => exact .inl rfl

/-- A step without reset from a busy state of the invariant completes the transaction, or leaves a busy state with fewer
edges left. -/
theorem State.Inv.step_completes_or_fewer_left {s : State} {p : Phase} (h : s.Inv) (hp : s.ph = p.code)
    (hbusy : p ≠ .idle) (hr : (s.inputAt 0).rst = false) :
    ∃ u, step s = .next u ∧
      (u.done = true ∨ ∃ q : Phase, u.ph = q.code ∧ q ≠ .idle ∧ edgesLeft u q < edgesLeft s p) := by
  rw [← State.consumeInput_ph] at hp
  obtain ⟨u, hu⟩ := h.consumeInput.exec_next hp (s.inputAt 0)
  rw [← edgesLeft_consumeInput]
  exact ⟨u, (step_phase (s.consumeInput_ph.symm.trans hp) hr).trans hu,
    (edge_of_exec hu).completes_or_fewer_left h.consumeInput hp hbusy⟩

/-- From a busy state of the invariant, with no reset, a completion comes within the edges left. -/
theorem State.Inv.completes_within {n : Nat} {s : State} {p : Phase} (h : s.Inv) (hp : s.ph = p.code)
    (hbusy : p ≠ .idle) (hn : edgesLeft s p ≤ n) (hr : ∀ k, k < n → (s.inputAt k).rst = false) :
    ∃ m t, 1 ≤ m ∧ m ≤ n ∧ steps m s = .next t ∧ t.done = true ∧ t.ph = Phase.idle.code := by
  induction n generalizing s p with
  | zero => exact absurd hn (Nat.not_le.mpr (h.edgesLeft_pos hbusy))
  | succ n ih =>
    obtain ⟨u, hu, hdone | ⟨q, hq, hqbusy, hfewer⟩⟩ := h.step_completes_or_fewer_left hp hbusy (hr 0 n.succ_pos)
    · obtain ⟨-, hidle, -⟩ := completion_of_step hu hdone
      exact ⟨1, u, Nat.le_refl 1, Nat.le_add_left 1 n, steps_succ_of_next hu, hdone, hidle⟩
    · obtain ⟨m, t, -, hm, hsteps, hend⟩ := ih (h.of_step hu) hq hqbusy (by omega) (noReset_of_step hu hr)
      exact ⟨m + 1, t, Nat.le_add_left 1 m, Nat.succ_le_succ hm, (steps_succ_of_next hu).trans hsteps, hend⟩

/-- The `READ` edge, as a step: `HCNT` is 0 in phase `HOLD` (rule R68). -/
theorem step_read_next {s : State} (hp : s.ph = Phase.idle.code) (hr : (s.inputAt 0).rst = false)
    (hs : (s.inputAt 0).start = true) :
    step s = .next ((s.consumeInput.clearDone.driveLow.setHcnt 0).goto .hold) :=
  (step_read hp hr hs).trans (exec_of_edge .read)

/-- Settles O57: a busy state completes within its edges left, which rule R120 bounds, and the `READ` edge leaves a busy
state. -/
theorem everyTransactionEndsWithinTheBound : Obligations.EveryTransactionEndsWithinTheBound := by
  refine ⟨fun s h hidle hr => ?_, fun s h hp hstart hr => ?_⟩
  · obtain ⟨p, hp⟩ := Phase.exists_code h.phase_legal
    exact h.completes_within hp (fun hpi => hidle (hpi ▸ hp)) (edgesLeft_le s p) hr
  · have hread := step_read_next hp (hr 0 (Nat.succ_pos _)) hstart
    have hleft := edgesLeft_le ((s.consumeInput.clearDone.driveLow.setHcnt 0).goto .hold) .hold
    rw [holdTicks_of_step hread] at hleft
    obtain ⟨m, t, -, hm, hsteps, hend⟩ :=
      (h.of_step hread).completes_within rfl (by decide) hleft (noReset_of_step hread hr)
    exact ⟨m + 1, t, Nat.le_add_left 1 m, Nat.succ_le_succ hm, (steps_succ_of_next hread).trans hsteps, hend⟩

/-! ### The shortest transaction -/

/-- A lower bound on the edges to the completion (rules R119, R120): the rest of the hold, one edge for each of the
three response waits and for `VALID`, or the edges until a wait times out if these are fewer. -/
def leastEdges (s : State) : Phase → Nat
  | .idle => 0
  | .hold => s.holdTicks.val - s.hcnt + 4
  | .ackA => min 4 (502 - s.tcnt.toNat)
  | .ackB => min 3 (502 - s.tcnt.toNat)
  | .ackC => min 2 (502 - s.tcnt.toNat)
  | .valid | .bitL | .bitH | .check => 1

/-- The bound looks at the registers, not at the inputs to come. -/
theorem leastEdges_consumeInput (s : State) (p : Phase) : leastEdges s.consumeInput p = leastEdges s p := by
  cases p <;> simp only [leastEdges, State.consumeInput_holdTicks, State.consumeInput_hcnt, State.consumeInput_tcnt]

/-- A sample counted by a wait is one edge. -/
theorem leastEdges_le_countTick {s : State} {p : Phase} {level : Level} (hw : waitLevel p = some level)
    (ht : s.tcnt.toNat ≤ 500) : leastEdges s p ≤ leastEdges s.clearDone.countTick p + 1 := by
  have htick : s.clearDone.countTick.tcnt.toNat = s.tcnt.toNat + 1 := tick_toNat ht
  cases p with
  | idle | hold | valid | check => cases hw
  | ackA | ackB | ackC | bitL | bitH => simp only [leastEdges, htick]; omega

/-- The rule of a busy phase brings the completion nearer by at most one edge. -/
theorem Edge.leastEdges_le {p : Phase} {w : InWord} {s t : State} (he : Edge (ruleOf p w) s t) (hp : s.ph = p.code)
    (hbusy : p ≠ .idle) : ∃ q : Phase, t.ph = q.code ∧ leastEdges s p ≤ leastEdges t q + 1 := by
  simp only [ruleOf] at he
  generalize w.lineIn = l at he
  cases p with
  | idle => exact absurd rfl hbusy
  | hold =>
    cases he with
    | holdRelease last => exact ⟨.ackA, rfl, by simp [leastEdges]; omega⟩
    | holdCount early => exact ⟨.hold, hp, by simp [leastEdges]; omega⟩
  | ackA =>
    cases he with
    | ackATimeout late => exact ⟨.idle, rfl, by simp [leastEdges]; omega⟩
    | ackAExit inTime => exact ⟨.ackB, rfl, by simp [leastEdges]⟩
    | ackACount inTime => exact ⟨.ackA, hp, leastEdges_le_countTick rfl inTime⟩
  | ackB =>
    cases he with
    | ackBTimeout late => exact ⟨.idle, rfl, by simp [leastEdges]; omega⟩
    | ackBExit inTime => exact ⟨.ackC, rfl, by simp [leastEdges]⟩
    | ackBCount inTime => exact ⟨.ackB, hp, leastEdges_le_countTick rfl inTime⟩
  | ackC =>
    cases he with
    | ackCTimeout late => exact ⟨.idle, rfl, by simp [leastEdges]; omega⟩
    | ackCExit inTime => exact ⟨.valid, rfl, by simp [leastEdges]⟩
    | ackCCount inTime => exact ⟨.ackC, hp, leastEdges_le_countTick rfl inTime⟩
  | valid =>
    cases he with
    | validPass => exact ⟨.bitL, rfl, Nat.le_add_left 1 _⟩
    | validFail => exact ⟨.idle, rfl, Nat.le_refl 1⟩
  | bitL =>
    cases he with
    | bitLTimeout => exact ⟨.idle, rfl, Nat.le_refl 1⟩
    | bitLExit => exact ⟨.bitH, rfl, Nat.le_add_left 1 _⟩
    | bitLCount => exact ⟨.bitL, hp, Nat.le_add_left 1 _⟩
  | bitH =>
    cases he with
    | bitHTimeout | bitHInvalid => exact ⟨.idle, rfl, Nat.le_refl 1⟩
    | bitHLast => exact ⟨.check, rfl, Nat.le_add_left 1 _⟩
    | bitHNext => exact ⟨.bitL, rfl, Nat.le_add_left 1 _⟩
    | bitHCount => exact ⟨.bitH, hp, Nat.le_add_left 1 _⟩
  | check =>
    cases he with
    | checkOk | checkMismatch => exact ⟨.idle, rfl, Nat.le_refl 1⟩

/-- A step without reset from a busy state brings the completion nearer by at most one edge. -/
theorem leastEdges_le_of_step {s t : State} {p : Phase} (h : step s = .next t) (hp : s.ph = p.code)
    (hbusy : p ≠ .idle) (hr : (s.inputAt 0).rst = false) :
    ∃ q : Phase, t.ph = q.code ∧ leastEdges s p ≤ leastEdges t q + 1 := by
  rw [← State.consumeInput_ph] at hp
  rw [step_phase (s.consumeInput_ph.symm.trans hp) hr] at h
  rw [← leastEdges_consumeInput]
  exact (edge_of_exec h).leastEdges_le hp hbusy

/-- Before the least number of edges has passed, with no reset, the engine is busy and `DONE` stays 0. -/
theorem busy_of_steps_lt_leastEdges {n : Nat} {s t : State} {p : Phase} (hp : s.ph = p.code) (hd : s.done = false)
    (hn : n < leastEdges s p) (hr : ∀ k, k < n → (s.inputAt k).rst = false) (h : steps n s = .next t) :
    t.done = false ∧ t.ph ≠ Phase.idle.code := by
  have hbusy : p ≠ .idle := by rintro rfl; exact Nat.not_lt_zero n hn
  induction n generalizing s p with
  | zero =>
    cases h
    exact ⟨hd, by simpa [hp] using hbusy⟩
  | succ n ih =>
    rw [steps_succ] at h
    split at h
    · rename_i u hu
      obtain ⟨q, hq, hle⟩ := leastEdges_le_of_step hu hp hbusy (hr 0 (Nat.succ_pos n))
      have hqleft : n < leastEdges u q := by omega
      have hqbusy : q ≠ .idle := by rintro rfl; exact Nat.not_lt_zero n hqleft
      have hud : u.done = false := by
        refine Bool.eq_false_iff.mpr fun hdone => hqbusy ?_
        obtain ⟨-, hidle, -⟩ := completion_of_step hu hdone
        simpa [hq] using hidle
      exact ih hq hud hqleft (noReset_of_step hu hr) h hqbusy
    · cases h
    · cases h

/-- Settles O58: the `READ` edge leaves a hold of `HOLD_TICKS` edges with four more to come, and `DONE = 0`. -/
theorem noTransactionIsShorterThanItsHold : Obligations.NoTransactionIsShorterThanItsHold := by
  intro s n t hp hstart hr hpos hlt h
  obtain ⟨n, rfl⟩ := Nat.exists_eq_add_of_le' hpos
  have hread := step_read_next hp (hr 0 hpos) hstart
  rw [steps_succ_of_next hread] at h
  exact busy_of_steps_lt_leastEdges (p := .hold) rfl rfl (by simp [leastEdges]; omega) (noReset_of_step hread hr) h

/-! ### Reset -/

/-- After reset the ports are those of the model's first state, all 0 (rules R16, R58, R108). -/
theorem State.outputs_reset_word (s : State) : s.resetRegisters.outputs.word = 0 := by
  have hports : s.resetRegisters.outputs = State.reset.outputs := rfl
  rw [hports]
  decide

/-- Settles O10: the step selects `RESET`, whose one edge leaves the registers that the ports show at 0. -/
theorem resetWritesEveryRegisterButRaw : Obligations.ResetWritesEveryRegisterButRaw :=
  ⟨fun s h => step_of_decode (decode_reset s.ph h),
   fun _ _ _ s => ⟨_, exec_of_edge .reset, rfl, s.outputs_reset_word⟩⟩

/-- Settles O11: a reset edge after a reset edge writes the same values again. -/
theorem heldResetGivesTheSameState : Obligations.HeldResetGivesTheSameState := by
  intro n s hr
  have hstep := step_reset (hr 0 (Nat.zero_le n))
  induction n generalizing s with
  | zero => rw [steps_succ_of_next hstep, State.afterInputs_one]; rfl
  | succ n ih =>
    have hlater (k) (hk : k ≤ n) := (congrArg InWord.rst (inputAt_of_step hstep k)).trans (hr (k + 1) (by omega))
    rw [steps_succ_of_next hstep, ih _ hlater (step_reset (hlater 0 (Nat.zero_le n))), s.afterInputs_succ]
    rfl

/-- In `IDLE` with `DONE = 0` an edge with neither reset nor `start` changes no register, nor do any number of them
(rule R67). -/
theorem steps_idle {n : Nat} {s : State} (hp : s.ph = Phase.idle.code) (hd : s.done = false)
    (hin : ∀ k, k < n → (s.inputAt k).rst = false ∧ (s.inputAt k).start = false) :
    steps n s = .next (s.afterInputs n) := by
  induction n generalizing s with
  | zero => rw [State.afterInputs_zero]; rfl
  | succ n ih =>
    obtain ⟨hr, hs⟩ := hin 0 (Nat.succ_pos n)
    have hclear : s.consumeInput.clearDone = s.consumeInput := by
      ext1 <;> simp [hd]
    have hstep : step s = .next s.consumeInput := by
      rw [step_nop hp hr hs, exec_of_edge .nop, hclear]
    rw [steps_succ_of_next hstep, s.afterInputs_succ]
    refine ih (by simpa using hp) (by simpa using hd) fun k hk => ?_
    rw [inputAt_of_step hstep]
    exact hin (k + 1) (Nat.succ_lt_succ hk)

/-- Settles O12: the state after reset waits in `IDLE` with `DONE = 0`. -/
theorem afterResetTheEngineWaitsInIdle : Obligations.AfterResetTheEngineWaitsInIdle :=
  ⟨fun _ => ⟨rfl, rfl, rfl, rfl, rfl⟩, fun _ _ hin => steps_idle rfl rfl hin⟩

/-! ### What no rule writes -/

/-- No rule writes the inputs to come: the step uses them up before it (rule R11). -/
theorem Edge.inputs_eq {i : Instr} {s t : State} (h : Edge i s t) : t.inputs = s.inputs ∧ t.draws = s.draws := by
  cases h <;> exact ⟨rfl, rfl⟩

/-- Settles O40, from what each edge leaves unchanged. -/
theorem noRuleWritesTheParameterOrTheInputs : Obligations.NoRuleWritesTheParameterOrTheInputs :=
  ⟨fun _ _ _ h => ⟨(edge_of_exec h).holdTicks_eq, (edge_of_exec h).inputs_eq⟩,
   fun _ _ h => ⟨holdTicks_of_step h, inputAt_of_step h⟩⟩

end Sys2Proof.Machine
end

section
/-! Reserved phases, the rows of the opcode table, and a table word that has been placed (rules R51, R54, R55; log
entries 3 and 6). -/

namespace Sys2Proof.Machine

/-! ### Reserved phases -/

/-- Every rule leaves `PH` as it is or gives it the code of a phase that has a name (rule R55). -/
theorem Edge.ph_kept_or_named {i : Instr} {s t : State} (h : Edge i s t) :
    t.ph = s.ph ∨ ∃ q : Phase, t.ph = q.code := by
  cases h with
  | nop | holdCount | ackACount | ackBCount | ackCCount | bitLCount | bitHCount => exact .inl rfl
  | reset | ackATimeout | ackBTimeout | ackCTimeout | validFail | bitLTimeout | bitHTimeout | bitHInvalid | checkOk
  | checkMismatch => exact .inr ⟨.idle, rfl⟩
  | read | holdRelease | ackAExit | ackBExit | ackCExit | validPass | bitLExit | bitHLast | bitHNext =>
    exact .inr ⟨_, State.goto_ph _ _⟩

/-- After an edge `PH` holds the code of a phase that has a name, whatever state it started from (rule R55). -/
theorem exists_phase_of_step {s t : State} (h : step s = .next t) : ∃ q : Phase, t.ph = q.code := by
  rcases step_next_cases h with ⟨-, rfl⟩ | ⟨-, p, hp, he⟩
  · exact ⟨.idle, rfl⟩
  · rcases he.ph_kept_or_named with hkept | hnamed
    · exact ⟨p, by rw [hkept, State.consumeInput_ph, hp]⟩
    · exact hnamed

/-- Settles O9: selection finds no rule there, and every edge leaves the code of a phase that has a name. -/
theorem reservedPhasesAreRefusedAndNeverEntered : Obligations.ReservedPhasesAreRefusedAndNeverEntered :=
  ⟨fun _ hp hr => step_reserved hr hp,
   fun _ _ h => by
    obtain ⟨q, hq⟩ := exists_phase_of_step h
    exact hq ▸ Phase.code_le q,
   fun _ h => h.inv.phase_legal⟩

/-! ### The rows of the opcode table -/

/-- An instruction's word belongs to the row of its mnemonic and to no other (rules R53, R54). -/
theorem rows_matching_encode : ∀ i : Instr, Laws.TableRow.Statement i
  | .reset ph st l => Laws.TableRow.reset ph st l
  | .nop l => Laws.TableRow.nop l
  | .read l => Laws.TableRow.read l
  | .hold st l => Laws.TableRow.hold st l
  | .ackA st l => Laws.TableRow.ackA st l
  | .ackB st l => Laws.TableRow.ackB st l
  | .ackC st l => Laws.TableRow.ackC st l
  | .valid st l => Laws.TableRow.valid st l
  | .bitL st l => Laws.TableRow.bitL st l
  | .bitH st l => Laws.TableRow.bitH st l
  | .check st l => Laws.TableRow.check st l

/-- The decoder rejects a selector only for a reserved phase without reset (rules R51, R55). -/
theorem reserved_of_decode_error {ph : PhaseWord} {w : InWord} {e : DecodeError}
    (h : decode (selector ph w) = .error e) : w.rst = false ∧ 8 < ph.toNat := by
  have hnone : ¬(w.rst = true ∨ ph.toNat ≤ 8) := fun hsel => by
    obtain ⟨i, hi⟩ := (decode_selector_ok_iff ph w).mpr hsel
    rw [hi] at h
    cases h
  simpa using hnone

/-- No row has a reserved phase without reset (rule R55). -/
theorem no_row_matches_reserved {ph : PhaseWord} {w : InWord} (hr : w.rst = false) (hp : 8 < ph.toNat) :
    (opcodeTable.filter fun r => r.matches (selector ph w)) = [] := by
  revert ph w; decide

/-- Settles O5: a word that decodes is its instruction's encoding, and a word that does not is a reserved phase. -/
theorem decoderPicksTheOneMatchingRow : Obligations.DecoderPicksTheOneMatchingRow := by
  intro w
  cases h : decode w with
  | ok i => exact encode_of_decode h ▸ rows_matching_encode i
  | error e =>
    rw [← selector_fields w] at h ⊢
    obtain ⟨hr, hp⟩ := reserved_of_decode_error h
    rw [no_row_matches_reserved hr hp]
    rfl

/-! ### A placed table word -/

/-- What the table decoder answers, it reads from the word's bits as a selector. -/
theorem decodeTableWord_eq_some {nbits w : Nat} {i : Instr} (h : decodeTableWord nbits w = some i) :
    w % 2 ^ nbits < 128 ∧ decode (BitVec.ofNat 7 (w % 2 ^ nbits)) = .ok i := by
  by_cases hfit : w % 2 ^ nbits < 128
  · refine ⟨hfit, ?_⟩
    rw [decodeTableWord, tableBits, decodeWord, if_pos hfit] at h
    split at h <;> cases h
    assumption
  · simp [decodeTableWord, tableBits, decodeWord, hfit] at h

/-- The phase field of a number that fits a selector word is what lies above its three input bits. -/
theorem SelWord.ph_ofNat {n : Nat} (h : n < 128) : SelWord.ph (BitVec.ofNat 7 n) = BitVec.ofNat 4 (n / 8) := by
  apply BitVec.eq_of_toNat_eq
  rw [SelWord.ph_toNat, BitVec.toNat_ofNat, BitVec.toNat_ofNat]
  omega

/-- The step after a selector word has been placed runs its instruction, and the placed input word is used up. -/
theorem step_placeSelector {w : SelWord} {i : Instr} (s : State) (h : decode w = .ok i) :
    step (s.placeSelector w) = exec i { s with ph := w.ph } := by
  have hinput : (s.placeSelector w).inputAt 0 = w.inWord := State.inputAt_zero_of_cons rfl
  have hselected : decode (selector (s.placeSelector w).ph ((s.placeSelector w).inputAt 0)) = .ok i := by
    rw [hinput, State.placeSelector_ph, selector_fields, h]
  rw [step_of_decode hselected, State.consumeInput_of_cons (State.placeSelector_inputs w s)]
  rfl

/-- Settles O7: the word's bits fit a selector, and the step after placing it runs what it decodes to. -/
theorem placedTableWordRuns : Obligations.PlacedTableWordRuns := by
  intro s nbits w i h
  obtain ⟨hfit, hdecode⟩ := decodeTableWord_eq_some h
  rw [← SelWord.ph_ofNat hfit]
  exact step_placeSelector s hdecode

end Sys2Proof.Machine
end
